-- ==== Sys2Proof/Word.lean ====
section
/-! DEFINITION. The bit-vector types of AOMAC-1: bytes, 16-bit elements, 32-bit words and 256-bit vectors
(spec/00_scope.md R7, R11; spec/10_state.md R31, R34). -/

namespace Sys2Proof

/-- One byte of instruction or data memory. -/
abbrev Byte := BitVec 8

/-- A 16-bit element of a vector register or of a kernel buffer (R34, R73). -/
abbrev Half := BitVec 16

/-- A 32-bit scalar register, control register, address or instruction word (R31, R37, R100). -/
abbrev Word := BitVec 32

/-- A vector register of VLEN = 256 bits (R34). -/
abbrev VWord := BitVec 256

end Sys2Proof
end

