-- ==== Sys2Proof/Syntax.lean ====
section
/-! DEFINITION. The instructions of AOMAC-1, one constructor per row of the opcode map (spec/30_encoding.md R114).
Immediates and CSR numbers are the numbers R115's decoder returns: a signed integer for imm18 and imm26, an
unsigned one for csr. -/

namespace Sys2Proof

/-- The number of a scalar register x0 … x15 (R31, R107). -/
abbrev XReg := Fin 16

/-- The number of a vector register v0 … v15 (R34, R107). -/
abbrev VReg := Fin 16

/-- The 27 instructions of R114. -/
inductive Instr where
  /-- HALT (R300). -/
  | halt
  /-- CSRR xd, csr (R301). -/
  | csrr (rd : XReg) (csr : Nat)
  /-- CSRW csr, xs1 (R302). -/
  | csrw (csr : Nat) (rs1 : XReg)
  /-- ADD xd, xs1, xs2 (R231). -/
  | add (rd rs1 rs2 : XReg)
  /-- SUB xd, xs1, xs2 (R232). -/
  | sub (rd rs1 rs2 : XReg)
  /-- MUL xd, xs1, xs2 (R233). -/
  | mul (rd rs1 rs2 : XReg)
  /-- DIV xd, xs1, xs2 (R234). -/
  | div (rd rs1 rs2 : XReg)
  /-- ADDI xd, xs1, imm18 (R235). -/
  | addi (rd rs1 : XReg) (imm : Int)
  /-- VALSCALE xd, xs1, xs2 (R201). -/
  | valscale (rd rs1 rs2 : XReg)
  /-- LW xd, imm18(xs1) (R261). -/
  | lw (rd rs1 : XReg) (imm : Int)
  /-- SW xt, imm18(xs1) (R262). -/
  | sw (rt rs1 : XReg) (imm : Int)
  /-- VLD vd, imm18(xs1) (R263). -/
  | vld (vd : VReg) (rs1 : XReg) (imm : Int)
  /-- VST vt, imm18(xs1) (R264). -/
  | vst (vt : VReg) (rs1 : XReg) (imm : Int)
  /-- BEQ xs1, xs2, imm18 (R281); `off` counts words. -/
  | beq (rs1 rs2 : XReg) (off : Int)
  /-- BNE xs1, xs2, imm18 (R282); `off` counts words. -/
  | bne (rs1 rs2 : XReg) (off : Int)
  /-- BLT xs1, xs2, imm18 (R283); `off` counts words. -/
  | blt (rs1 rs2 : XReg) (off : Int)
  /-- J imm26 (R284); `off` counts words. -/
  | j (off : Int)
  /-- VZERO vd (R141). -/
  | vzero (vd : VReg)
  /-- VSET1 vd, xs1 (R142). -/
  | vset1 (vd : VReg) (rs1 : XReg)
  /-- VMIN16 vd, vs1, vs2 (R143). -/
  | vmin16 (vd vs1 vs2 : VReg)
  /-- VMAX16 vd, vs1, vs2 (R144). -/
  | vmax16 (vd vs1 vs2 : VReg)
  /-- VMULLO16 vd, vs1, vs2 (R145). -/
  | vmullo16 (vd vs1 vs2 : VReg)
  /-- VMADD16 vd, vs1, vs2 (R146). -/
  | vmadd16 (vd vs1 vs2 : VReg)
  /-- VADD32 vd, vs1, vs2 (R147). -/
  | vadd32 (vd vs1 vs2 : VReg)
  /-- VHSUM32 xd, vs1 (R148). -/
  | vhsum32 (rd : XReg) (vs1 : VReg)
  /-- KPOLICY xd, xs1, xs2, xs3 (R182): bases of us, them and the weights. -/
  | kpolicy (rd rs1 rs2 rs3 : XReg)
  /-- KVALUE xd, xs1, xs2, xs3, xs4 (R202): bases of us, them and the weights, then the bias. -/
  | kvalue (rd rs1 rs2 rs3 rs4 : XReg)
  deriving DecidableEq, Repr

end Sys2Proof
end

