-- ==== Sys2Proof/WellFormed.lean ====
section
/-! DEFINITION. The operands an encoding can hold (spec/30_encoding.md R103 to R106, R108 to R111): signed 18-bit and
26-bit immediates and 12-bit CSR numbers. Register numbers are 4-bit by their type. -/

namespace Sys2Proof

/-- The range of a signed 18-bit immediate (R108, R109). -/
def fitsImm18 (z : Int) : Bool := decide (-131072 ≤ z) && decide (z ≤ 131071)

/-- The range of a signed 26-bit immediate (R110). -/
def fitsImm26 (z : Int) : Bool := decide (-33554432 ≤ z) && decide (z ≤ 33554431)

/-- The range of a 12-bit CSR number (R106, R111); assignment is checked at execution, not here. -/
def fitsCsr (n : Nat) : Bool := decide (n < 4096)

/-- The instruction's operands fit the fields of its encoding. -/
def Instr.wellFormed : Instr → Bool
  | .halt => true
  | .csrr _ n => fitsCsr n
  | .csrw n _ => fitsCsr n
  | .add _ _ _ => true
  | .sub _ _ _ => true
  | .mul _ _ _ => true
  | .div _ _ _ => true
  | .addi _ _ z => fitsImm18 z
  | .valscale _ _ _ => true
  | .lw _ _ z => fitsImm18 z
  | .sw _ _ z => fitsImm18 z
  | .vld _ _ z => fitsImm18 z
  | .vst _ _ z => fitsImm18 z
  | .beq _ _ z => fitsImm18 z
  | .bne _ _ z => fitsImm18 z
  | .blt _ _ z => fitsImm18 z
  | .j z => fitsImm26 z
  | .vzero _ => true
  | .vset1 _ _ => true
  | .vmin16 _ _ _ => true
  | .vmax16 _ _ _ => true
  | .vmullo16 _ _ _ => true
  | .vmadd16 _ _ _ => true
  | .vadd32 _ _ _ => true
  | .vhsum32 _ _ => true
  | .kpolicy _ _ _ _ => true
  | .kvalue _ _ _ _ _ => true

end Sys2Proof
end

