-- ==== Sys2Proof/Decode.lean ====
section
/-! DEFINITION. Decoding and encoding of instruction words (spec/30_encoding.md R100 to R115): the fields, the opcode
map as a table of rows, the total decoder, and after it the encoder. -/

namespace Sys2Proof

/-- Why a word is illegal (R112). Every one of these raises ILLEGAL_INSTR when the word is executed. -/
inductive Illegal where
  /-- R112 (a): no row of R114 has this opcode. -/
  | unassignedOpcode (op : BitVec 6)
  /-- R112 (b) and (c): the opcode is the named row's, and a must-be-zero bit is 1. -/
  | reservedBits (mnemonic : String)
  /-- Fewer than the four bytes every instruction has (R100); only `decodeBytes` answers it. -/
  | truncated
  deriving DecidableEq, Repr

/-! ## Fields (R101 to R106) -/

/-- The primary opcode, bits [31:26] (R101). -/
def opField (w : Word) : BitVec 6 := w.extractLsb' 26 6

/-- Bits [25:22]: rd in formats R, I and C, rs1 in format B. -/
def fieldA (w : Word) : Fin 16 := (w.extractLsb' 22 4).toFin

/-- Bits [21:18]: rs1 in formats R, I and C, rs2 in format B. -/
def fieldB (w : Word) : Fin 16 := (w.extractLsb' 18 4).toFin

/-- Bits [17:14]: rs2 of format R. -/
def fieldC (w : Word) : Fin 16 := (w.extractLsb' 14 4).toFin

/-- Bits [13:10]: rs3 of format R. -/
def fieldD (w : Word) : Fin 16 := (w.extractLsb' 10 4).toFin

/-- Bits [9:6]: rs4 of format R. -/
def fieldE (w : Word) : Fin 16 := (w.extractLsb' 6 4).toFin

/-- `sint(w[17:0])` (R108, R109). -/
def imm18Field (w : Word) : Int := (w.extractLsb' 0 18).toInt

/-- `sint(w[25:0])` (R110). -/
def imm26Field (w : Word) : Int := (w.extractLsb' 0 26).toInt

/-- `uint(w[11:0])` (R111). -/
def csrField (w : Word) : Nat := (w.extractLsb' 0 12).toNat

/-! ## The opcode map (R114) -/

/-- One row of R114: `pattern` is its `match` column, `build` takes the operands from a word's fields. -/
structure OpRow where
  mnemonic : String
  pattern : Word
  mask : Word
  build : Word → Instr

/-- The rows of the system and scalar instructions (R300 to R302, R231 to R235, R201). -/
def opcodeTableScalar : List OpRow :=
  [ ⟨"HALT", 0x04000000#32, 0xFFFFFFFF#32, fun _ => .halt⟩,
    ⟨"CSRR", 0x08000000#32, 0xFC3FF000#32, fun w => .csrr (fieldA w) (csrField w)⟩,
    ⟨"CSRW", 0x0C000000#32, 0xFFC3F000#32, fun w => .csrw (csrField w) (fieldB w)⟩,
    ⟨"ADD", 0x20000000#32, 0xFC003FFF#32, fun w => .add (fieldA w) (fieldB w) (fieldC w)⟩,
    ⟨"SUB", 0x24000000#32, 0xFC003FFF#32, fun w => .sub (fieldA w) (fieldB w) (fieldC w)⟩,
    ⟨"MUL", 0x28000000#32, 0xFC003FFF#32, fun w => .mul (fieldA w) (fieldB w) (fieldC w)⟩,
    ⟨"DIV", 0x2C000000#32, 0xFC003FFF#32, fun w => .div (fieldA w) (fieldB w) (fieldC w)⟩,
    ⟨"ADDI", 0x30000000#32, 0xFC000000#32, fun w => .addi (fieldA w) (fieldB w) (imm18Field w)⟩,
    ⟨"VALSCALE", 0x34000000#32, 0xFC003FFF#32, fun w => .valscale (fieldA w) (fieldB w) (fieldC w)⟩ ]

/-- The rows of the loads, stores and control transfers (R261 to R264, R281 to R284). -/
def opcodeTableMemory : List OpRow :=
  [ ⟨"LW", 0x40000000#32, 0xFC000000#32, fun w => .lw (fieldA w) (fieldB w) (imm18Field w)⟩,
    ⟨"SW", 0x44000000#32, 0xFC000000#32, fun w => .sw (fieldA w) (fieldB w) (imm18Field w)⟩,
    ⟨"VLD", 0x48000000#32, 0xFC000000#32, fun w => .vld (fieldA w) (fieldB w) (imm18Field w)⟩,
    ⟨"VST", 0x4C000000#32, 0xFC000000#32, fun w => .vst (fieldA w) (fieldB w) (imm18Field w)⟩,
    ⟨"BEQ", 0x60000000#32, 0xFC000000#32, fun w => .beq (fieldA w) (fieldB w) (imm18Field w)⟩,
    ⟨"BNE", 0x64000000#32, 0xFC000000#32, fun w => .bne (fieldA w) (fieldB w) (imm18Field w)⟩,
    ⟨"BLT", 0x68000000#32, 0xFC000000#32, fun w => .blt (fieldA w) (fieldB w) (imm18Field w)⟩,
    ⟨"J", 0x6C000000#32, 0xFC000000#32, fun w => .j (imm26Field w)⟩ ]

/-- The rows of the vector primitives and the fused kernels (R141 to R148, R182, R202). -/
def opcodeTableVector : List OpRow :=
  [ ⟨"VZERO", 0x80000000#32, 0xFC3FFFFF#32, fun w => .vzero (fieldA w)⟩,
    ⟨"VSET1", 0x84000000#32, 0xFC03FFFF#32, fun w => .vset1 (fieldA w) (fieldB w)⟩,
    ⟨"VMIN16", 0x88000000#32, 0xFC003FFF#32, fun w => .vmin16 (fieldA w) (fieldB w) (fieldC w)⟩,
    ⟨"VMAX16", 0x8C000000#32, 0xFC003FFF#32, fun w => .vmax16 (fieldA w) (fieldB w) (fieldC w)⟩,
    ⟨"VMULLO16", 0x90000000#32, 0xFC003FFF#32, fun w => .vmullo16 (fieldA w) (fieldB w) (fieldC w)⟩,
    ⟨"VMADD16", 0x94000000#32, 0xFC003FFF#32, fun w => .vmadd16 (fieldA w) (fieldB w) (fieldC w)⟩,
    ⟨"VADD32", 0x98000000#32, 0xFC003FFF#32, fun w => .vadd32 (fieldA w) (fieldB w) (fieldC w)⟩,
    ⟨"VHSUM32", 0x9C000000#32, 0xFC03FFFF#32, fun w => .vhsum32 (fieldA w) (fieldB w)⟩,
    ⟨"KPOLICY", 0xC0000000#32, 0xFC0003FF#32,
      fun w => .kpolicy (fieldA w) (fieldB w) (fieldC w) (fieldD w)⟩,
    ⟨"KVALUE", 0xC4000000#32, 0xFC00003F#32,
      fun w => .kvalue (fieldA w) (fieldB w) (fieldC w) (fieldD w) (fieldE w)⟩ ]

/-- The complete opcode map of R114, 27 rows in its order. -/
def opcodeTable : List OpRow := opcodeTableScalar ++ opcodeTableMemory ++ opcodeTableVector

/-- The row of R114 with a word's opcode, if there is one. -/
def rowOf (w : Word) : Option OpRow := opcodeTable.find? (fun r => opField r.pattern == opField w)

/-! ## The decoder (R115) -/

/-- R115: decoding, total on every 32-bit word; an illegal word is rejected by name (R112). -/
def decode (w : Word) : Except Illegal Instr :=
  match rowOf w with
  | none => .error (.unassignedOpcode (opField w))
  | some r => if w &&& r.mask = r.pattern then .ok (r.build w) else .error (.reservedBits r.mnemonic)

/-- The word of four bytes, the first at the lowest address: instruction words are little-endian (R74). -/
def wordOfBytes (b0 b1 b2 b3 : Byte) : Word := b3 ++ b2 ++ b1 ++ b0

/-- Byte `i` of a word, byte 0 the least significant (R72, R74). -/
def byteOfWord (w : Word) (i : Nat) : Byte := w.extractLsb' (8 * i) 8

/-- R100, R115 on bytes as they lie in IMEM: four bytes make one instruction; the rest is handed back. -/
def decodeBytes : List Byte → Except Illegal (Instr × List Byte)
  | b0 :: b1 :: b2 :: b3 :: rest =>
    match decode (wordOfBytes b0 b1 b2 b3) with
    | .ok i => .ok (i, rest)
    | .error e => .error e
  | _ => .error .truncated

/-- The instruction the decoder reads from the instruction whose bits are `w`, numbered as spec/opcode_table.json
numbers them; bits at or above `nbits` are zero. -/
def decodeTableWord (nbits w : Nat) : Option Instr :=
  let word : Word := BitVec.ofNat 32 (w % 2 ^ nbits)
  match decodeBytes [byteOfWord word 0, byteOfWord word 1, byteOfWord word 2, byteOfWord word 3] with
  | .ok (i, _) => some i
  | .error _ => none

/-! ## The encoder (R102 to R106, R114) -/

/-- Format R (R102). -/
def formatR (op : BitVec 6) (rd rs1 rs2 rs3 rs4 : Fin 16) : Word :=
  op ++ (BitVec.ofFin rd : BitVec 4) ++ (BitVec.ofFin rs1 : BitVec 4) ++ (BitVec.ofFin rs2 : BitVec 4) ++
    (BitVec.ofFin rs3 : BitVec 4) ++ (BitVec.ofFin rs4 : BitVec 4) ++ 0#6

/-- Formats I and B (R103, R104): two register fields and an 18-bit immediate. -/
def formatI (op : BitVec 6) (a b : Fin 16) (imm : Int) : Word :=
  op ++ (BitVec.ofFin a : BitVec 4) ++ (BitVec.ofFin b : BitVec 4) ++ BitVec.ofInt 18 imm

/-- Format J (R105). -/
def formatJ (op : BitVec 6) (imm : Int) : Word := op ++ BitVec.ofInt 26 imm

/-- Format C (R106). -/
def formatC (op : BitVec 6) (rd rs1 : Fin 16) (csr : Nat) : Word :=
  op ++ (BitVec.ofFin rd : BitVec 4) ++ (BitVec.ofFin rs1 : BitVec 4) ++ 0#6 ++ BitVec.ofNat 12 csr

/-- The word of an instruction (R102 to R106 with the opcodes of R114). -/
def encode : Instr → Word
  | .halt => formatR 0x01#6 0 0 0 0 0
  | .csrr rd n => formatC 0x02#6 rd 0 n
  | .csrw n rs1 => formatC 0x03#6 0 rs1 n
  | .add rd rs1 rs2 => formatR 0x08#6 rd rs1 rs2 0 0
  | .sub rd rs1 rs2 => formatR 0x09#6 rd rs1 rs2 0 0
  | .mul rd rs1 rs2 => formatR 0x0A#6 rd rs1 rs2 0 0
  | .div rd rs1 rs2 => formatR 0x0B#6 rd rs1 rs2 0 0
  | .addi rd rs1 imm => formatI 0x0C#6 rd rs1 imm
  | .valscale rd rs1 rs2 => formatR 0x0D#6 rd rs1 rs2 0 0
  | .lw rd rs1 imm => formatI 0x10#6 rd rs1 imm
  | .sw rt rs1 imm => formatI 0x11#6 rt rs1 imm
  | .vld vd rs1 imm => formatI 0x12#6 vd rs1 imm
  | .vst vt rs1 imm => formatI 0x13#6 vt rs1 imm
  | .beq rs1 rs2 off => formatI 0x18#6 rs1 rs2 off
  | .bne rs1 rs2 off => formatI 0x19#6 rs1 rs2 off
  | .blt rs1 rs2 off => formatI 0x1A#6 rs1 rs2 off
  | .j off => formatJ 0x1B#6 off
  | .vzero vd => formatR 0x20#6 vd 0 0 0 0
  | .vset1 vd rs1 => formatR 0x21#6 vd rs1 0 0 0
  | .vmin16 vd vs1 vs2 => formatR 0x22#6 vd vs1 vs2 0 0
  | .vmax16 vd vs1 vs2 => formatR 0x23#6 vd vs1 vs2 0 0
  | .vmullo16 vd vs1 vs2 => formatR 0x24#6 vd vs1 vs2 0 0
  | .vmadd16 vd vs1 vs2 => formatR 0x25#6 vd vs1 vs2 0 0
  | .vadd32 vd vs1 vs2 => formatR 0x26#6 vd vs1 vs2 0 0
  | .vhsum32 rd vs1 => formatR 0x27#6 rd vs1 0 0 0
  | .kpolicy rd rs1 rs2 rs3 => formatR 0x30#6 rd rs1 rs2 rs3 0
  | .kvalue rd rs1 rs2 rs3 rs4 => formatR 0x31#6 rd rs1 rs2 rs3 rs4

/-- The name of an instruction's row in R114. -/
def Instr.mnemonic : Instr → String
  | .halt => "HALT"
  | .csrr _ _ => "CSRR"
  | .csrw _ _ => "CSRW"
  | .add _ _ _ => "ADD"
  | .sub _ _ _ => "SUB"
  | .mul _ _ _ => "MUL"
  | .div _ _ _ => "DIV"
  | .addi _ _ _ => "ADDI"
  | .valscale _ _ _ => "VALSCALE"
  | .lw _ _ _ => "LW"
  | .sw _ _ _ => "SW"
  | .vld _ _ _ => "VLD"
  | .vst _ _ _ => "VST"
  | .beq _ _ _ => "BEQ"
  | .bne _ _ _ => "BNE"
  | .blt _ _ _ => "BLT"
  | .j _ => "J"
  | .vzero _ => "VZERO"
  | .vset1 _ _ => "VSET1"
  | .vmin16 _ _ _ => "VMIN16"
  | .vmax16 _ _ _ => "VMAX16"
  | .vmullo16 _ _ _ => "VMULLO16"
  | .vmadd16 _ _ _ => "VMADD16"
  | .vadd32 _ _ _ => "VADD32"
  | .vhsum32 _ _ => "VHSUM32"
  | .kpolicy _ _ _ _ => "KPOLICY"
  | .kvalue _ _ _ _ _ => "KVALUE"

end Sys2Proof
end

