-- ==== Sys2Proof/Config.lean ====
section
/-! DEFINITION. What is fixed for one AOMAC-1: the parameters of spec/00_scope.md R7 and R8, and the free values of
RESET_DRAW (spec/92_eei_decisions.md D45, spec/93_implementation_defined.md U1), which are opaque: nothing in Lean
can evaluate them or prove anything of their value. -/

namespace Sys2Proof.Config

/-- NE16: 16-bit elements per vector (R7). -/
def ne16 : Nat := 16

/-- NE32: 32-bit lanes per vector (R7). -/
def ne32 : Nat := 8

/-- VLENB: bytes per vector (R7, R45). -/
def vlenb : Nat := 32

/-- IMEM_SIZE: bytes of instruction memory (R7, R70). -/
def imemSize : Nat := 4096

/-- DMEM_SIZE: bytes of data memory (R7, R71). -/
def dmemSize : Nat := 65536

/-- QA: the activation clamp ceiling (R7, R8, R44). -/
def qa : Int := 255

/-- QB: the weight quantization scale (R7, R8, R44). -/
def qb : Int := 64

/-- ESCALE: the output scale of the value formula (R7, R8, R44). -/
def escale : Int := 400

/-- The reset value of KLEN, the source's layer width L (R7, R43). -/
def klenReset : Word := 512#32

/-- IMPLID: the implementation identifier (R7, R47). -/
def implid : Word := 0x414F4D01#32

/-- FREE VALUE (RESET_DRAW, D45, U1): what scalar register `i` holds after the reset number `epoch`.
Never evaluated and never fixed; log entry 1. -/
opaque xDraw : (epoch : Nat) → (i : Nat) → Word

/-- FREE VALUE (RESET_DRAW, D45, U1): what vector register `i` holds after the reset number `epoch`; log entry 1. -/
opaque vDraw : (epoch : Nat) → (i : Nat) → VWord

/-- FREE VALUE (RESET_DRAW, D45, U1): what a byte of instruction memory reads as while nothing has written it
since the reset number `epoch`; log entry 2. -/
opaque imemDraw : (epoch : Nat) → (address : Nat) → Byte

/-- FREE VALUE (RESET_DRAW, D45, U1): what a byte of data memory reads as while nothing has written it since the
reset number `epoch`; log entry 2. -/
opaque dmemDraw : (epoch : Nat) → (address : Nat) → Byte

end Sys2Proof.Config
end

