-- ==== Sys2Proof/Machine/State.lean ====
section
/-! DEFINITION. The state of one AOMAC-1 (spec/10_state.md R30 to R50), with the model's own fields for the host agent
(spec/60_exceptions.md R350 to R360), the reasons a step could stop, and the state after reset (R50, R370). -/

namespace Sys2Proof.Machine

/-! ## The fault record's cause (R325) -/

/-- What CAUSE holds: the cause of the last fault, or none since START or reset (R325, R42). Codes 9 to 15 are
reserved and never produced (U12), so they have no constructor. -/
inductive Cause where
  | none
  | illegalInstr
  | fetchFault
  | loadMisaligned
  | loadAccess
  | storeMisaligned
  | storeAccess
  | klenInvalid
  | divByZero
  deriving DecidableEq, Repr

/-! ## The host port's transactions (R350 to R356) -/

/-- One transaction of the host port. Addresses, register indices and CSR numbers are unbounded numbers: one that
reaches nothing is answered ERR (R351 to R353). -/
inductive HostTx where
  /-- HOST_RD_DMEM(a) (R351). -/
  | rdDmem (a : Nat)
  /-- HOST_WR_DMEM(a, byte) (R351). -/
  | wrDmem (a : Nat) (b : Byte)
  /-- HOST_RD_IMEM(a) (R352). -/
  | rdImem (a : Nat)
  /-- HOST_WR_IMEM(a, word) (R352). -/
  | wrImem (a : Nat) (w : Word)
  /-- HOST_RD_X(i) (R353). -/
  | rdX (i : Nat)
  /-- HOST_WR_X(i, v32) (R353). -/
  | wrX (i : Nat) (v : Word)
  /-- HOST_RD_V(i) (R353). -/
  | rdV (i : Nat)
  /-- HOST_WR_V(i, v256) (R353). -/
  | wrV (i : Nat) (v : VWord)
  /-- HOST_RD_CSR(n) (R353, R357). -/
  | rdCsr (n : Nat)
  /-- HOST_WR_CSR(n, v32) (R353). -/
  | wrCsr (n : Nat) (v : Word)
  /-- HOST_START(pc0) (R354). -/
  | start (pc0 : Word)
  /-- HOST_STOP() (R355). -/
  | stop
  /-- HOST_RESET() (R356). -/
  | reset
  deriving DecidableEq, Repr

/-- The response to a transaction: OK, with read data for a read, or ERR (R350). -/
inductive HostReply where
  | ok
  | okByte (b : Byte)
  | okWord (w : Word)
  | okVector (v : VWord)
  | err
  deriving DecidableEq, Repr

/-- Whose turn the next step is: the engine's, or the host's with one transaction. The order in which engine steps
and transactions interleave is open (R359, U15), so it is data of the state. -/
inductive Turn where
  | engine
  | host (t : HostTx)
  deriving DecidableEq, Repr

/-! ## Memory -/

/-- A memory: the bytes written since the last reset, by address. The canonical form is `Memory.wf`
(Machine/Ops.lean); an unlisted address has been written by nobody and reads as a free value (R50, U1). -/
abbrev Memory := List Host.Cell

/-! ## Outcomes other than a next state -/

/-- Reasons for a step to stop with a fault of the model. There are NONE: every fault of AOMAC-1 is an exception
whose entry R330 describes, so it is a next state (`raise` in Machine/Ops.lean), and while RUN = 0 the engine's turn
leaves the state as it is (R320, R345). An empty type is safe: nothing stops that the hardware would run. -/
inductive Fault where
  deriving DecidableEq, Repr

/-- Reasons for a step to be refused. -/
inductive Refusal where
  /-- Raised only by an arm of `exec` for an instruction that has no meaning yet; no arm of this model raises it.
  Safe: the machine stops instead of doing something of its own. -/
  | notModelled (mnemonic : String)
  deriving DecidableEq, Repr

/-! ## The state -/

/-- The architectural state of R30, then the model's own fields. -/
structure State where
  /-- x0 … x15 (R31); slot 0 stays 0 and is never read. -/
  x : Vector Word 16
  /-- v0 … v15 (R34). -/
  v : Vector VWord 16
  /-- The program counter, a byte address in IMEM (R37). -/
  pc : Word
  /-- STATUS.RUN, bit 0 (R39). -/
  run : Bool
  /-- STATUS.HALTED, bit 1 (R39). -/
  halted : Bool
  /-- STATUS.FAULT, bit 2 (R39). -/
  fault : Bool
  /-- STATUS.OVF, bit 3: the sticky overflow flag (R39, R41). -/
  ovf : Bool
  /-- CAUSE (R42). -/
  cause : Cause
  /-- FPC: the pc of the faulting instruction or fetch (R42). -/
  fpc : Word
  /-- FADDR: the cause-specific value (R42, R325). -/
  faddr : Word
  /-- FINST: the faulting word, or 0 for FETCH_FAULT (R42). -/
  finst : Word
  /-- KLEN: the layer width L (R43). -/
  klen : Word
  /-- Instruction memory (R70). -/
  imem : Memory
  /-- Data memory (R71). -/
  dmem : Memory
  /-- The model's own: how many HOST_RESETs have happened; it indexes the free values of RESET_DRAW (D45). -/
  epoch : Nat
  /-- The model's own: the turns still to come, the next one first; an empty list gives every turn to the engine
  (R359). -/
  sched : List Turn
  /-- The model's own: the host port's responses so far, the latest first (R350). -/
  replies : List HostReply
  deriving DecidableEq, Repr

/-! ## Reset (R50, R370) -/

/-- A file of 16 registers, register `i` holding `f i`. -/
def regs16 {α : Type} (f : Fin 16 → α) : Vector α 16 :=
  #v[f 0, f 1, f 2, f 3, f 4, f 5, f 6, f 7, f 8, f 9, f 10, f 11, f 12, f 13, f 14, f 15]

/-- R50, R370: the state a reset leaves, the reset being number `epoch`. x1 … x15, v0 … v15, IMEM and DMEM are
UNSPECIFIED and hold free values (log entries 1 and 2); the turns and the responses are the host's and no part of
the engine's reset. -/
def State.resetAt (epoch : Nat) (sched : List Turn) (replies : List HostReply) : State where
  x := regs16 (fun i => if i = 0 then 0#32 else Config.xDraw epoch i.val)
  v := regs16 (fun i => Config.vDraw epoch i.val)
  pc := 0#32
  run := false
  halted := false
  fault := false
  ovf := false
  cause := .none
  fpc := 0#32
  faddr := 0#32
  finst := 0#32
  klen := Config.klenReset
  imem := []
  dmem := []
  epoch := epoch
  sched := sched
  replies := replies

/-- The machine right after power-on reset (R50): idle, with no host transaction pending. -/
def State.reset : State := State.resetAt 0 [] []

end Sys2Proof.Machine
end

