-- ==== Sys2Proof/Machine/Operands.lean ====
section
/-! DEFINITION. How operands are read and results are formed: the integer domains of spec/00_scope.md R11 to R14, the
two views of a vector register (spec/10_state.md R34, R35), effective and target addresses (spec/44_load_store.md
R260, spec/45_control.md R280). -/

namespace Sys2Proof.Machine

/-! ## Integers (R11 to R14) -/

/-- The int32 pattern of `wrap32(z)` (R12). -/
def wrap32 (z : Int) : Word := BitVec.ofInt 32 z

/-- The int16 pattern of `lo16(z)` (R12). -/
def lo16Bits (z : Int) : Half := BitVec.ofInt 16 z

/-- `lo16(z)` (R12): the low 16 bits read as signed. -/
def lo16 (z : Int) : Int := (lo16Bits z).toInt

/-- `tdiv(a, b)` (R13): division truncating toward zero. -/
def tdiv (a b : Int) : Int := Int.tdiv a b

/-- `clip(v)` (R14): the floor at 0 first, then the ceiling at QA. -/
def clip (z : Int) : Int := min (max z 0) Config.qa

/-- The int16 reading of the low 16 bits of a register, bits [31:16] ignored (R142, R201, D14). -/
def lowHalf (w : Word) : Half := w.extractLsb' 0 16

/-- The sum of `f 0 … f (n-1)` in ℤ. -/
def sumTo (f : Nat → Int) : Nat → Int
  | 0 => 0
  | n + 1 => sumTo f n + f n

/-! ## Parts of a value (R10, R15, R35, R72) -/

/-- The value of `width` bits whose `n` parts of `w` bits are `f 0 … f (n-1)`, part 0 least significant. -/
def pack (width w : Nat) (f : Nat → BitVec w) : Nat → BitVec width
  | 0 => 0#width
  | n + 1 => pack width w f n ||| ((f n).setWidth width <<< (w * n))

/-- Element `k` of a vector, bits [16k+15:16k] (R15, R34). -/
def e16 (u : VWord) (k : Nat) : Half := u.extractLsb' (16 * k) 16

/-- Lane `j` of a vector, bits [32j+31:32j] (R15, R34). -/
def e32 (u : VWord) (j : Nat) : Word := u.extractLsb' (32 * j) 32

/-- The vector of the elements `f 0 … f 15`. -/
def ofE16 (f : Nat → Half) : VWord := pack 256 16 f Config.ne16

/-- The vector of the lanes `f 0 … f 7`. -/
def ofE32 (f : Nat → Word) : VWord := pack 256 32 f Config.ne32

/-- Byte `i` of a vector, bits [8i+7:8i] (R72). -/
def byteOfVector (u : VWord) (i : Nat) : Byte := u.extractLsb' (8 * i) 8

/-! ## Addresses (R108 to R110, R260, R280) -/

/-- The effective address of a load or store: base plus signed immediate, mod 2^32 (R108, R260). -/
def effectiveAddress (base : Word) (imm : Int) : Word := BitVec.ofInt 32 ((base.toNat : Int) + imm)

/-- The target of a branch or jump: the address of the branch itself plus a signed word offset, mod 2^32
(R109, R110, R280). -/
def branchTarget (pc : Word) (off : Int) : Word := BitVec.ofInt 32 ((pc.toNat : Int) + off * 4)

end Sys2Proof.Machine
end

