-- ==== Sys2Proof/Machine/Flags.lean ====
section
/-! DEFINITION. STATUS.OVF, the only flag of the machine (spec/10_state.md R41): when an exact result does not fit, and
the sticky update. -/

namespace Sys2Proof.Machine

/-- `fits32(z)` (R12). -/
def fits32 (z : Int) : Bool := decide (-2147483648 ≤ z) && decide (z ≤ 2147483647)

/-- Some lane's exact result does not fit int32 (R146, R147). -/
def someLaneOverflows (f : Nat → Int) : Bool := (List.range Config.ne32).any (fun j => !fits32 (f j))

/-- OVF is set, and never cleared, when `overflow` holds (R41). -/
def State.flagOverflow (s : State) (overflow : Bool) : State := { s with ovf := s.ovf || overflow }

/-- A write of STATUS: bit 3 goes to OVF, every other bit is ignored (R39, R302, R353). -/
def State.writeStatus (s : State) (w : Word) : State := { s with ovf := w.getLsbD 3 }

end Sys2Proof.Machine
end

