-- ==== Sys2Proof/Machine/Ops.lean ====
section
/-! DEFINITION. The named operations every meaning is made of: registers (spec/10_state.md R31, R34, R37), memory
(spec/20_memory.md R70 to R78), raising an exception and stopping (spec/60_exceptions.md R325 to R330). -/

namespace Sys2Proof.Machine

/-! ## Registers -/

/-- `x[r]`: x0 reads 0 (R31). -/
def State.readX (s : State) (r : XReg) : Word := if r = 0 then 0#32 else s.x[r.val]

/-- `x[r] <- w`: a write to x0 is discarded (R31). -/
def State.writeX (s : State) (r : XReg) (w : Word) : State :=
  { s with x := if r = 0 then s.x else s.x.set r.val w }

/-- `v[r]` (R34). -/
def State.readV (s : State) (r : VReg) : VWord := s.v[r.val]

/-- `v[r] <- u` (R34). -/
def State.writeV (s : State) (r : VReg) (u : VWord) : State := { s with v := s.v.set r.val u }

/-- `pc <- a`. -/
def State.setPc (s : State) (a : Word) : State := { s with pc := a }

/-- `pc <- pc + 4`, mod 2^32 (R37). -/
def State.advance (s : State) : State := s.setPc (s.pc + 4#32)

/-- `csr[KLEN] <- w` (R43). -/
def State.setKlen (s : State) (w : Word) : State := { s with klen := w }

/-- The common end of an instruction with an int32 result: OVF when the exact result `z` does not fit, its wrapped
value in `x[r]`, and pc + 4 (R230). -/
def State.writeExact (s : State) (r : XReg) (z : Int) : State :=
  ((s.flagOverflow (!fits32 z)).writeX r (wrap32 z)).advance

/-! ## Memory -/

/-- What a memory holds at an address: nothing while nobody has written it. -/
def Memory.lookup : Memory → Nat → Option Byte
  | [], _ => none
  | (k, b) :: m, a => if k = a then some b else Memory.lookup m a

/-- Writes one byte, keeping the addresses strictly rising. -/
def Memory.write : Memory → Nat → Byte → Memory
  | [], a, b => [(a, b)]
  | (k, c) :: m, a, b =>
    if a < k then (a, b) :: (k, c) :: m
    else if a = k then (a, b) :: m
    else (k, c) :: Memory.write m a b

/-- Writes the `n` bytes `f 0 … f (n-1)` at `a … a+n-1` (R72). -/
def Memory.writeBytes (m : Memory) (a : Nat) (f : Nat → Byte) : Nat → Memory
  | 0 => m
  | n + 1 => (Memory.writeBytes m a f n).write (a + n) (f n)

/-- The canonical form of a memory of `size` bytes: addresses strictly rising and inside the memory. An unlisted
address holds no value, so no entry equals it. -/
abbrev Memory.wf (size : Nat) (m : Memory) : Prop :=
  m.Pairwise (fun p q => p.1 < q.1) ∧ ∀ p ∈ m, p.1 < size

/-- One byte of data memory; one that nothing has written since reset is a free value, the same at every read
(R50, R81, U1). -/
def State.dmemByte (s : State) (a : Nat) : Byte := (s.dmem.lookup a).getD (Config.dmemDraw s.epoch a)

/-- One byte of instruction memory; one that nothing has written since reset is a free value (R50, U1). -/
def State.imemByte (s : State) (a : Nat) : Byte := (s.imem.lookup a).getD (Config.imemDraw s.epoch a)

/-- `MemRead(a, 4)` (R16, R72). -/
def State.loadWord (s : State) (a : Nat) : Word := pack 32 8 (fun i => s.dmemByte (a + i)) 4

/-- `MemRead(a, VLENB)` (R16, R73). -/
def State.loadVector (s : State) (a : Nat) : VWord := pack 256 8 (fun i => s.dmemByte (a + i)) Config.vlenb

/-- `sint(MemRead(a, 2))`: one int16 element of a kernel buffer (R73, R182). -/
def State.loadHalf (s : State) (a : Nat) : Int := (pack 16 8 (fun i => s.dmemByte (a + i)) 2).toInt

/-- Stores the bytes `f 0 … f (n-1)` in data memory at `a … a+n-1` (R72). -/
def State.storeBytes (s : State) (a : Nat) (f : Nat → Byte) (n : Nat) : State :=
  { s with dmem := s.dmem.writeBytes a f n }

/-- `MemWrite(a, 4, w)` (R16, R72). -/
def State.storeWord (s : State) (a : Nat) (w : Word) : State := s.storeBytes a (byteOfWord w) 4

/-- `MemWrite(a, VLENB, u)` (R16, R73). -/
def State.storeVector (s : State) (a : Nat) (u : VWord) : State := s.storeBytes a (byteOfVector u) Config.vlenb

/-- Stores one little-endian word in instruction memory (R74, R352). -/
def State.storeInstr (s : State) (a : Nat) (w : Word) : State :=
  { s with imem := s.imem.writeBytes a (byteOfWord w) 4 }

/-- `IFetch(a)` (R16, R74). -/
def State.ifetch (s : State) (a : Nat) : Word :=
  wordOfBytes (s.imemByte a) (s.imemByte (a + 1)) (s.imemByte (a + 2)) (s.imemByte (a + 3))

/-! ## Taking an exception (R17, R330) -/

/-- A failed check: the cause and the value FADDR takes (R325). -/
structure Trap where
  cause : Cause
  info : Word
  deriving DecidableEq, Repr

/-- Fault entry (R330): the engine stops, FAULT is set, the record is written with the pc and the fetched word
(0 for FETCH_FAULT), and nothing else changes. There is no return from it but the host's START (R333). -/
def State.raise (s : State) (t : Trap) (w : Word) : State :=
  { s with
    run := false
    fault := true
    cause := t.cause
    fpc := s.pc
    faddr := t.info
    finst := if t.cause = .fetchFault then 0#32 else w }

/-- An instruction with checks (R18): the first failing check raises and nothing else is written; with none, the
instruction's effect. The faulting word is the instruction's own, since every legal word decodes to one instruction
and encodes back to itself. -/
def State.checked (s : State) (i : Instr) (trap : Option Trap) (effect : State → State) : State :=
  match trap with
  | none => effect s
  | some t => s.raise t (encode i)

/-- ILLEGAL_INSTR(0) (R301, R302, R325). -/
def illegalTrap : Trap := ⟨.illegalInstr, 0#32⟩

/-- The checks of R76 in their order: alignment, then range, the sum in ℤ. -/
def accessTrap (misaligned access : Cause) (align size : Nat) (a : Word) : Option Trap :=
  if a.toNat % align ≠ 0 then some ⟨misaligned, a⟩
  else if a.toNat + size > Config.dmemSize then some ⟨access, a⟩
  else none

/-- R76 for a load of `n` bytes, aligned to its size (R77). -/
def loadTrap (n : Nat) (a : Word) : Option Trap := accessTrap .loadMisaligned .loadAccess n n a

/-- R76 for a store of `n` bytes, aligned to its size (R77). -/
def storeTrap (n : Nat) (a : Word) : Option Trap := accessTrap .storeMisaligned .storeAccess n n a

/-- R326, R78: a fetch needs pc mod 4 = 0 and pc + 4 ≤ IMEM_SIZE, the sum in ℤ. -/
def fetchable (pc : Word) : Bool := decide (pc.toNat % 4 = 0) && decide (pc.toNat + 4 ≤ Config.imemSize)

/-! ## Stopping -/

/-- HALT's effect (R300): RUN clears, HALTED sets, pc stays. -/
def State.halt (s : State) : State := { s with run := false, halted := true }

end Sys2Proof.Machine
end

