-- ==== Sys2Proof/Machine/Control.lean ====
section
/-! DEFINITION. Control transfer (spec/45_control.md R280 to R285). A target is not checked here: the next fetch checks
it (R280). -/

namespace Sys2Proof.Machine

/-- A conditional branch: the target when taken, else pc + 4 (R281 to R283). -/
def State.branch (s : State) (taken : Bool) (off : Int) : State :=
  s.setPc (if taken then branchTarget s.pc off else s.pc + 4#32)

/-- BEQ xs1, xs2, imm18 (R281). -/
def execBeq (rs1 rs2 : XReg) (off : Int) (s : State) : Host.Outcome State Fault Refusal :=
  .next (s.branch (decide (s.readX rs1 = s.readX rs2)) off)

/-- BNE xs1, xs2, imm18 (R282). -/
def execBne (rs1 rs2 : XReg) (off : Int) (s : State) : Host.Outcome State Fault Refusal :=
  .next (s.branch (decide (s.readX rs1 ≠ s.readX rs2)) off)

/-- BLT xs1, xs2, imm18 (R283): a signed comparison. -/
def execBlt (rs1 rs2 : XReg) (off : Int) (s : State) : Host.Outcome State Fault Refusal :=
  .next (s.branch (decide ((s.readX rs1).toInt < (s.readX rs2).toInt)) off)

/-- J imm26 (R284). -/
def execJ (off : Int) (s : State) : Host.Outcome State Fault Refusal := .next (s.setPc (branchTarget s.pc off))

end Sys2Proof.Machine
end

