-- ==== Sys2Proof/Machine/LoadStore.lean ====
section
/-! DEFINITION. Loads and stores (spec/44_load_store.md R260 to R264). -/

namespace Sys2Proof.Machine

/-- The effective address of a load or store in a state (R260). -/
def State.address (s : State) (rs1 : XReg) (imm : Int) : Word := effectiveAddress (s.readX rs1) imm

/-- LW xd, imm18(xs1) (R261). -/
def execLw (rd rs1 : XReg) (imm : Int) (s : State) : Host.Outcome State Fault Refusal :=
  .next (s.checked (.lw rd rs1 imm) (loadTrap 4 (s.address rs1 imm))
    (fun s => (s.writeX rd (s.loadWord (s.address rs1 imm).toNat)).advance))

/-- SW xt, imm18(xs1) (R262). -/
def execSw (rt rs1 : XReg) (imm : Int) (s : State) : Host.Outcome State Fault Refusal :=
  .next (s.checked (.sw rt rs1 imm) (storeTrap 4 (s.address rs1 imm))
    (fun s => (s.storeWord (s.address rs1 imm).toNat (s.readX rt)).advance))

/-- VLD vd, imm18(xs1) (R263). -/
def execVld (vd : VReg) (rs1 : XReg) (imm : Int) (s : State) : Host.Outcome State Fault Refusal :=
  .next (s.checked (.vld vd rs1 imm) (loadTrap Config.vlenb (s.address rs1 imm))
    (fun s => (s.writeV vd (s.loadVector (s.address rs1 imm).toNat)).advance))

/-- VST vt, imm18(xs1) (R264). -/
def execVst (vt : VReg) (rs1 : XReg) (imm : Int) (s : State) : Host.Outcome State Fault Refusal :=
  .next (s.checked (.vst vt rs1 imm) (storeTrap Config.vlenb (s.address rs1 imm))
    (fun s => (s.storeVector (s.address rs1 imm).toNat (s.readV vt)).advance))

end Sys2Proof.Machine
end

