-- ==== Sys2Proof/Machine/Kernel.lean ====
section
/-! DEFINITION. What the two fused kernels share: the buffer checks of spec/41_policy_kernel.md R181 and the reading of
buffer elements (R73, R182). -/

namespace Sys2Proof.Machine

/-- KLEN_INVALID(L) unless L is a nonzero multiple of NE16 (R43, R181). -/
def klenTrap (klen : Word) : Option Trap :=
  if klen.toNat = 0 ∨ klen.toNat % Config.ne16 ≠ 0 then some ⟨.klenInvalid, klen⟩ else none

/-- R76 for a whole kernel buffer of `n` bytes, its base aligned to VLENB (R77, R181). -/
def bufferTrap (n : Nat) (base : Word) : Option Trap :=
  accessTrap .loadMisaligned .loadAccess Config.vlenb n base

/-- `check_kernel(L, bu, bt, bw)` (R181): KLEN, then us, then them, then the weights, the first failure winning. -/
def kernelTrap (klen bu bt bw : Word) : Option Trap :=
  (klenTrap klen).or ((bufferTrap (2 * klen.toNat) bu).or
    ((bufferTrap (2 * klen.toNat) bt).or (bufferTrap (4 * klen.toNat) bw)))

/-- Element `i` of the int16 buffer at `base` (R73). -/
def State.element (s : State) (base i : Nat) : Int := s.loadHalf (base + 2 * i)

end Sys2Proof.Machine
end

