-- ==== Sys2Proof/Machine/Vector.lean ====
section
/-! DEFINITION. The vector lane primitives (spec/40_vector_ops.md R140 to R150). -/

namespace Sys2Proof.Machine

/-! ## What each primitive computes -/

/-- VSET1: the low 16 bits in every element (R142). -/
def broadcast16 (w : Word) : VWord := ofE16 (fun _ => lowHalf w)

/-- The signed smaller of two elements, written as `sext_16(min(a, b))` (R143). -/
def minVector (a b : VWord) : VWord :=
  ofE16 (fun k => BitVec.ofInt 16 (min (e16 a k).toInt (e16 b k).toInt))

/-- The signed larger of two elements, written as `sext_16(max(a, b))` (R144). -/
def maxVector (a b : VWord) : VWord :=
  ofE16 (fun k => BitVec.ofInt 16 (max (e16 a k).toInt (e16 b k).toInt))

/-- The low 16 bits of each exact element product (R145). -/
def mulloVector (a b : VWord) : VWord :=
  ofE16 (fun k => lo16Bits ((e16 a k).toInt * (e16 b k).toInt))

/-- VMADD16's exact sum for lane `j` (R146). -/
def maddExact (a b : VWord) (j : Nat) : Int :=
  (e16 a (2 * j)).toInt * (e16 b (2 * j)).toInt + (e16 a (2 * j + 1)).toInt * (e16 b (2 * j + 1)).toInt

/-- VADD32's exact sum for lane `j` (R147). -/
def addExact (a b : VWord) (j : Nat) : Int := (e32 a j).toInt + (e32 b j).toInt

/-- The vector of the wrapped lanes of exact values (R146, R147). -/
def wrapLanes (f : Nat → Int) : VWord := ofE32 (fun j => wrap32 (f j))

/-- VHSUM32's exact sum of all 32-bit lanes (R148). -/
def hsumExact (a : VWord) : Int := sumTo (fun j => (e32 a j).toInt) Config.ne32

/-- VMADD16's result (R146). -/
def maddVector (a b : VWord) : VWord := wrapLanes (maddExact a b)

/-- VADD32's result (R147). -/
def addVector (a b : VWord) : VWord := wrapLanes (addExact a b)

/-- VHSUM32's result (R148). -/
def hsum (a : VWord) : Word := wrap32 (hsumExact a)

/-- The accumulation of R149 from VZERO: for each pair of vectors, VADD32 of its VMADD16 result. -/
def accumulate (terms : List (VWord × VWord)) : VWord :=
  terms.foldl (fun acc p => addVector acc (maddVector p.1 p.2)) 0#256

/-! ## The instructions -/

/-- VZERO vd (R141). -/
def execVzero (vd : VReg) (s : State) : Host.Outcome State Fault Refusal := .next (s.writeV vd 0#256).advance

/-- VSET1 vd, xs1 (R142). -/
def execVset1 (vd : VReg) (rs1 : XReg) (s : State) : Host.Outcome State Fault Refusal :=
  .next (s.writeV vd (broadcast16 (s.readX rs1))).advance

/-- VMIN16 vd, vs1, vs2 (R143). -/
def execVmin16 (vd vs1 vs2 : VReg) (s : State) : Host.Outcome State Fault Refusal :=
  .next (s.writeV vd (minVector (s.readV vs1) (s.readV vs2))).advance

/-- VMAX16 vd, vs1, vs2 (R144). -/
def execVmax16 (vd vs1 vs2 : VReg) (s : State) : Host.Outcome State Fault Refusal :=
  .next (s.writeV vd (maxVector (s.readV vs1) (s.readV vs2))).advance

/-- VMULLO16 vd, vs1, vs2 (R145); the truncation is no overflow. -/
def execVmullo16 (vd vs1 vs2 : VReg) (s : State) : Host.Outcome State Fault Refusal :=
  .next (s.writeV vd (mulloVector (s.readV vs1) (s.readV vs2))).advance

/-- The common end of VMADD16 and VADD32: each lane's exact value wrapped, OVF when one does not fit (R146, R147). -/
def State.writeLanes (s : State) (vd : VReg) (f : Nat → Int) : State :=
  ((s.flagOverflow (someLaneOverflows f)).writeV vd (wrapLanes f)).advance

/-- VMADD16 vd, vs1, vs2 (R146). -/
def execVmadd16 (vd vs1 vs2 : VReg) (s : State) : Host.Outcome State Fault Refusal :=
  .next (s.writeLanes vd (maddExact (s.readV vs1) (s.readV vs2)))

/-- VADD32 vd, vs1, vs2 (R147). -/
def execVadd32 (vd vs1 vs2 : VReg) (s : State) : Host.Outcome State Fault Refusal :=
  .next (s.writeLanes vd (addExact (s.readV vs1) (s.readV vs2)))

/-- VHSUM32 xd, vs1 (R148). -/
def execVhsum32 (rd : XReg) (vs1 : VReg) (s : State) : Host.Outcome State Fault Refusal :=
  .next (s.writeExact rd (hsumExact (s.readV vs1)))

end Sys2Proof.Machine
end

