-- ==== Sys2Proof/Machine/Policy.lean ====
section
/-! DEFINITION. The PolicyKernel, KPOLICY (spec/41_policy_kernel.md R180 to R186). -/

namespace Sys2Proof.Machine

/-- The us half's term at index `i`: `lo16(us[i] * w_us[i]) * them[i]`, the cross pairing (R182, R184). -/
def State.policyUsTerm (s : State) (bu bt bw i : Nat) : Int :=
  lo16 (s.element bu i * s.element bw i) * s.element bt i

/-- The them half's term at index `i`: `lo16(them[i] * w_them[i]) * us[i]`, `w_them` beginning `2L` bytes into the
weights (R180, R182). -/
def State.policyThemTerm (s : State) (len bu bt bw i : Nat) : Int :=
  lo16 (s.element bt i * s.element (bw + 2 * len) i) * s.element bu i

/-- The exact `P` of R182. -/
def State.policySum (s : State) (len bu bt bw : Nat) : Int :=
  sumTo (s.policyUsTerm bu bt bw) len + sumTo (s.policyThemTerm len bu bt bw) len

/-- The source's chunked algorithm in primitives (R183): the accumulator after the first `n` chunks. -/
def State.policyChunks (s : State) (len bu bt bw : Nat) : Nat → VWord
  | 0 => 0#256
  | c + 1 =>
    let us := s.loadVector (bu + 32 * c)
    let them := s.loadVector (bt + 32 * c)
    let wUs := s.loadVector (bw + 32 * c)
    let wThem := s.loadVector (bw + 2 * len + 32 * c)
    addVector (addVector (State.policyChunks s len bu bt bw c) (maddVector (mulloVector us wUs) them))
      (maddVector (mulloVector them wThem) us)

/-- KPOLICY xd, xs1, xs2, xs3 (R182). -/
def execKpolicy (rd rs1 rs2 rs3 : XReg) (s : State) : Host.Outcome State Fault Refusal :=
  .next (s.checked (.kpolicy rd rs1 rs2 rs3) (kernelTrap s.klen (s.readX rs1) (s.readX rs2) (s.readX rs3))
    (fun s => s.writeExact rd
      (s.policySum s.klen.toNat (s.readX rs1).toNat (s.readX rs2).toNat (s.readX rs3).toNat)))

end Sys2Proof.Machine
end

