-- ==== Sys2Proof/Machine/Scalar.lean ====
section
/-! DEFINITION. Scalar arithmetic (spec/43_scalar_alu.md R230 to R235). -/

namespace Sys2Proof.Machine

/-- ADD xd, xs1, xs2 (R231). -/
def execAdd (rd rs1 rs2 : XReg) (s : State) : Host.Outcome State Fault Refusal :=
  .next (s.writeExact rd ((s.readX rs1).toInt + (s.readX rs2).toInt))

/-- SUB xd, xs1, xs2 (R232). -/
def execSub (rd rs1 rs2 : XReg) (s : State) : Host.Outcome State Fault Refusal :=
  .next (s.writeExact rd ((s.readX rs1).toInt - (s.readX rs2).toInt))

/-- MUL xd, xs1, xs2 (R233). -/
def execMul (rd rs1 rs2 : XReg) (s : State) : Host.Outcome State Fault Refusal :=
  .next (s.writeExact rd ((s.readX rs1).toInt * (s.readX rs2).toInt))

/-- DIV_BY_ZERO(0) when the divisor is 0 (R234). -/
def divisorTrap (b : Word) : Option Trap := if b = 0#32 then some ⟨.divByZero, 0#32⟩ else none

/-- DIV xd, xs1, xs2 (R234). -/
def execDiv (rd rs1 rs2 : XReg) (s : State) : Host.Outcome State Fault Refusal :=
  .next (s.checked (.div rd rs1 rs2) (divisorTrap (s.readX rs2))
    (fun s => s.writeExact rd (tdiv (s.readX rs1).toInt (s.readX rs2).toInt)))

/-- ADDI xd, xs1, imm18 (R235). -/
def execAddi (rd rs1 : XReg) (imm : Int) (s : State) : Host.Outcome State Fault Refusal :=
  .next (s.writeExact rd ((s.readX rs1).toInt + imm))

end Sys2Proof.Machine
end

