-- ==== Sys2Proof/Machine/Csr.lean ====
section
/-! DEFINITION. The control and status registers (spec/10_state.md R38 to R48): the map, what the engine and the host
read, and what a write does. -/

namespace Sys2Proof.Machine

/-- The registers of R38. -/
inductive Csr where
  | status
  | cause
  | fpc
  | faddr
  | finst
  | klen
  | qa
  | qb
  | escale
  | vlenb
  | implid
  | dmemsz
  | imemsz
  deriving DecidableEq, Repr

/-- The map of R38; every other number is unassigned (R48). -/
def csrOf (n : Nat) : Option Csr :=
  match n with
  | 0x000 => some .status
  | 0x001 => some .cause
  | 0x002 => some .fpc
  | 0x003 => some .faddr
  | 0x004 => some .finst
  | 0x010 => some .klen
  | 0x020 => some .qa
  | 0x021 => some .qb
  | 0x022 => some .escale
  | 0x023 => some .vlenb
  | 0x030 => some .implid
  | 0x031 => some .dmemsz
  | 0x032 => some .imemsz
  | _ => none

/-- The cause code of R325, in CAUSE bits [3:0]; bits [31:4] read 0 (R42). -/
def causeCode : Cause → Word
  | .none => 0#32
  | .illegalInstr => 1#32
  | .fetchFault => 2#32
  | .loadMisaligned => 3#32
  | .loadAccess => 4#32
  | .storeMisaligned => 5#32
  | .storeAccess => 6#32
  | .klenInvalid => 7#32
  | .divByZero => 8#32

/-- STATUS as the engine reads it: OVF in bit 3, RUN = 1, HALTED = FAULT = 0 (R39, R301). -/
def State.statusForEngine (s : State) : Word := 0#28 ++ BitVec.ofBool s.ovf ++ 0#1 ++ 0#1 ++ 1#1

/-- STATUS as the host reads it: the true bits (R39, R353). -/
def State.statusForHost (s : State) : Word :=
  0#28 ++ BitVec.ofBool s.ovf ++ BitVec.ofBool s.fault ++ BitVec.ofBool s.halted ++ BitVec.ofBool s.run

/-- What the engine reads from a register (R38 to R47). -/
def State.readCsr (s : State) : Csr → Word
  | .status => s.statusForEngine
  | .cause => causeCode s.cause
  | .fpc => s.fpc
  | .faddr => s.faddr
  | .finst => s.finst
  | .klen => s.klen
  | .qa => BitVec.ofInt 32 Config.qa
  | .qb => BitVec.ofInt 32 Config.qb
  | .escale => BitVec.ofInt 32 Config.escale
  | .vlenb => BitVec.ofNat 32 Config.vlenb
  | .implid => Config.implid
  | .dmemsz => BitVec.ofNat 32 Config.dmemSize
  | .imemsz => BitVec.ofNat 32 Config.imemSize

/-- What the host reads from a register: as the engine, but for STATUS (R353). -/
def State.hostReadCsr (s : State) (c : Csr) : Word := if c = .status then s.statusForHost else s.readCsr c

/-- A write, by CSRW or by the host: STATUS takes bit 3 into OVF, KLEN takes any value, every other register is
read-only (R38, R39, R43, R302, R353). -/
def State.writeCsr (s : State) (c : Csr) (w : Word) : Option State :=
  match c with
  | .status => some (s.writeStatus w)
  | .klen => some (s.setKlen w)
  | .cause => none
  | .fpc => none
  | .faddr => none
  | .finst => none
  | .qa => none
  | .qb => none
  | .escale => none
  | .vlenb => none
  | .implid => none
  | .dmemsz => none
  | .imemsz => none

end Sys2Proof.Machine
end

