-- ==== Sys2Proof/Machine/System.lean ====
section
/-! DEFINITION. System instructions (spec/46_system.md R300 to R303). -/

namespace Sys2Proof.Machine

/-- HALT (R300). -/
def execHalt (s : State) : Host.Outcome State Fault Refusal := .next s.halt

/-- CSRR xd, csr (R301): an unassigned number raises ILLEGAL_INSTR(0). -/
def execCsrr (rd : XReg) (csr : Nat) (s : State) : Host.Outcome State Fault Refusal :=
  .next (match csrOf csr with
    | none => s.raise illegalTrap (encode (.csrr rd csr))
    | some c => (s.writeX rd (s.readCsr c)).advance)

/-- CSRW csr, xs1 (R302): an unassigned number or a read-only register raises ILLEGAL_INSTR(0). -/
def execCsrw (csr : Nat) (rs1 : XReg) (s : State) : Host.Outcome State Fault Refusal :=
  .next (match (csrOf csr).bind (fun c => s.writeCsr c (s.readX rs1)) with
    | none => s.raise illegalTrap (encode (.csrw csr rs1))
    | some t => t.advance)

end Sys2Proof.Machine
end

