-- ==== Sys2Proof/Machine/Value.lean ====
section
/-! DEFINITION. The ValueKernel, KVALUE, and its final scaling, VALSCALE (spec/42_value_kernel.md R200 to R207). -/

namespace Sys2Proof.Machine

/-! ## The final scaling (R201) -/

/-- VALSCALE's exact product `m = (tdiv(output, QA) + bias) * ESCALE` (R201). -/
def scaleProduct (output : Word) (bias : Half) : Int :=
  (tdiv output.toInt Config.qa + bias.toInt) * Config.escale

/-- VALSCALE's result `tdiv(wrap32(m), QA * QB)` (R201). -/
def scaleResult (output : Word) (bias : Half) : Word :=
  BitVec.ofInt 32 (tdiv (wrap32 (scaleProduct output bias)).toInt (Config.qa * Config.qb))

/-- The common end of VALSCALE and KVALUE: OVF when the product by ESCALE does not fit, the scaled value in `x[rd]`,
and pc + 4 (R201). -/
def State.writeScaled (s : State) (rd : XReg) (output : Word) (bias : Half) : State :=
  ((s.flagOverflow (!fits32 (scaleProduct output bias))).writeX rd (scaleResult output bias)).advance

/-- VALSCALE xd, xs1, xs2 (R201). -/
def execValscale (rd rs1 rs2 : XReg) (s : State) : Host.Outcome State Fault Refusal :=
  .next (s.writeScaled rd (s.readX rs1) (lowHalf (s.readX rs2)))

/-! ## The kernel (R202) -/

/-- One side's term at index `i`: `c * lo16(c * w)` with `c` the clipped element (R202 to R204). -/
def State.valueTerm (s : State) (base weights i : Nat) : Int :=
  clip (s.element base i) * lo16 (clip (s.element base i) * s.element weights i)

/-- The exact `S` of R202. -/
def State.valueSum (s : State) (len bu bt bw : Nat) : Int :=
  sumTo (s.valueTerm bu bw) len + sumTo (s.valueTerm bt (bw + 2 * len)) len

/-- The clip in primitives, VMAX16 with zero and then VMIN16 with QA (R203). -/
def clipVector (u : VWord) : VWord :=
  minVector (maxVector u 0#256) (broadcast16 (BitVec.ofInt 32 Config.qa))

/-- The source's chunked algorithm in primitives (R205): the accumulator after the first `n` chunks. -/
def State.valueChunks (s : State) (len bu bt bw : Nat) : Nat → VWord
  | 0 => 0#256
  | c + 1 =>
    let us := clipVector (s.loadVector (bu + 32 * c))
    let them := clipVector (s.loadVector (bt + 32 * c))
    let wUs := s.loadVector (bw + 32 * c)
    let wThem := s.loadVector (bw + 2 * len + 32 * c)
    addVector (addVector (State.valueChunks s len bu bt bw c) (maddVector (mulloVector us wUs) us))
      (maddVector (mulloVector them wThem) them)

/-- KVALUE xd, xs1, xs2, xs3, xs4 (R202): OVF for `S`, then VALSCALE of the wrapped `S` with its own OVF. -/
def execKvalue (rd rs1 rs2 rs3 rs4 : XReg) (s : State) : Host.Outcome State Fault Refusal :=
  .next (s.checked (.kvalue rd rs1 rs2 rs3 rs4) (kernelTrap s.klen (s.readX rs1) (s.readX rs2) (s.readX rs3))
    (fun s =>
      let total := s.valueSum s.klen.toNat (s.readX rs1).toNat (s.readX rs2).toNat (s.readX rs3).toNat
      (s.flagOverflow (!fits32 total)).writeScaled rd (wrap32 total) (lowHalf (s.readX rs4))))

end Sys2Proof.Machine
end

