-- ==== Sys2Proof/Machine/Dispatch.lean ====
section
/-! DEFINITION. One arm per instruction of spec/30_encoding.md R114, in its order, each a direct call of its meaning. -/

namespace Sys2Proof.Machine

def exec (i : Instr) (s : State) : Host.Outcome State Fault Refusal :=
  match i with
  | .halt => Sys2Proof.Machine.execHalt s
  | .csrr rd csr => Sys2Proof.Machine.execCsrr rd csr s
  | .csrw csr rs1 => Sys2Proof.Machine.execCsrw csr rs1 s
  | .add rd rs1 rs2 => Sys2Proof.Machine.execAdd rd rs1 rs2 s
  | .sub rd rs1 rs2 => Sys2Proof.Machine.execSub rd rs1 rs2 s
  | .mul rd rs1 rs2 => Sys2Proof.Machine.execMul rd rs1 rs2 s
  | .div rd rs1 rs2 => Sys2Proof.Machine.execDiv rd rs1 rs2 s
  | .addi rd rs1 imm => Sys2Proof.Machine.execAddi rd rs1 imm s
  | .valscale rd rs1 rs2 => Sys2Proof.Machine.execValscale rd rs1 rs2 s
  | .lw rd rs1 imm => Sys2Proof.Machine.execLw rd rs1 imm s
  | .sw rt rs1 imm => Sys2Proof.Machine.execSw rt rs1 imm s
  | .vld vd rs1 imm => Sys2Proof.Machine.execVld vd rs1 imm s
  | .vst vt rs1 imm => Sys2Proof.Machine.execVst vt rs1 imm s
  | .beq rs1 rs2 off => Sys2Proof.Machine.execBeq rs1 rs2 off s
  | .bne rs1 rs2 off => Sys2Proof.Machine.execBne rs1 rs2 off s
  | .blt rs1 rs2 off => Sys2Proof.Machine.execBlt rs1 rs2 off s
  | .j off => Sys2Proof.Machine.execJ off s
  | .vzero vd => Sys2Proof.Machine.execVzero vd s
  | .vset1 vd rs1 => Sys2Proof.Machine.execVset1 vd rs1 s
  | .vmin16 vd vs1 vs2 => Sys2Proof.Machine.execVmin16 vd vs1 vs2 s
  | .vmax16 vd vs1 vs2 => Sys2Proof.Machine.execVmax16 vd vs1 vs2 s
  | .vmullo16 vd vs1 vs2 => Sys2Proof.Machine.execVmullo16 vd vs1 vs2 s
  | .vmadd16 vd vs1 vs2 => Sys2Proof.Machine.execVmadd16 vd vs1 vs2 s
  | .vadd32 vd vs1 vs2 => Sys2Proof.Machine.execVadd32 vd vs1 vs2 s
  | .vhsum32 rd vs1 => Sys2Proof.Machine.execVhsum32 rd vs1 s
  | .kpolicy rd rs1 rs2 rs3 => Sys2Proof.Machine.execKpolicy rd rs1 rs2 rs3 s
  | .kvalue rd rs1 rs2 rs3 rs4 => Sys2Proof.Machine.execKvalue rd rs1 rs2 rs3 rs4 s

end Sys2Proof.Machine
end

