-- ==== Sys2Proof/Machine/HostPort.lean ====
section
/-! DEFINITION. The host port (spec/60_exceptions.md R350 to R360): what each transaction answers and does. -/

namespace Sys2Proof.Machine

/-- A transaction that is ERR while the engine runs (R357). -/
def State.whenStopped (s : State) (r : HostReply × State) : HostReply × State := if s.run then (.err, s) else r

/-- HOST_START(pc0) when the engine is stopped (R354). -/
def State.start (s : State) (pc0 : Word) : State :=
  { s with
    pc := pc0
    run := true
    halted := false
    fault := false
    ovf := false
    cause := .none
    fpc := 0#32
    faddr := 0#32
    finst := 0#32 }

/-- HOST_STOP: RUN clears; HALTED and FAULT are 0 in a run and stay so (R355). -/
def State.stop (s : State) : State := { s with run := false }

/-- HOST_RESET: the state of R370, with new free values for what it leaves UNSPECIFIED (R356, D45). -/
def State.hostReset (s : State) : State := State.resetAt (s.epoch + 1) s.sched s.replies

/-- The response to a transaction and the state it leaves (R350 to R357). -/
def hostAccess (s : State) : HostTx → HostReply × State
  | .rdDmem a => s.whenStopped (if a < Config.dmemSize then (.okByte (s.dmemByte a), s) else (.err, s))
  | .wrDmem a b =>
    s.whenStopped (if a < Config.dmemSize then (.ok, s.storeBytes a (fun _ => b) 1) else (.err, s))
  | .rdImem a =>
    s.whenStopped (if a % 4 = 0 ∧ a + 4 ≤ Config.imemSize then (.okWord (s.ifetch a), s) else (.err, s))
  | .wrImem a w =>
    s.whenStopped (if a % 4 = 0 ∧ a + 4 ≤ Config.imemSize then (.ok, s.storeInstr a w) else (.err, s))
  | .rdX i => s.whenStopped (if h : i < 16 then (.okWord (s.readX ⟨i, h⟩), s) else (.err, s))
  | .wrX i w => s.whenStopped (if h : i < 16 then (.ok, s.writeX ⟨i, h⟩ w) else (.err, s))
  | .rdV i => s.whenStopped (if h : i < 16 then (.okVector (s.readV ⟨i, h⟩), s) else (.err, s))
  | .wrV i u => s.whenStopped (if h : i < 16 then (.ok, s.writeV ⟨i, h⟩ u) else (.err, s))
  | .rdCsr n =>
    match csrOf n with
    | none => (.err, s)
    | some .status => (.okWord (s.hostReadCsr .status), s)
    | some c => s.whenStopped (.okWord (s.hostReadCsr c), s)
  | .wrCsr n w =>
    s.whenStopped (match (csrOf n).bind (fun c => s.writeCsr c w) with
      | none => (.err, s)
      | some t => (.ok, t))
  | .start pc0 => s.whenStopped (.ok, s.start pc0)
  | .stop => (.ok, s.stop)
  | .reset => (.ok, s.hostReset)

/-- The host's turn: one transaction, atomic, its response recorded (R350, R359). -/
def State.hostTurn (s : State) (t : HostTx) : State :=
  let r := hostAccess s t
  { r.2 with replies := r.1 :: r.2.replies }

end Sys2Proof.Machine
end

