-- ==== Sys2Proof/Machine/Step.lean ====
section
/-! DEFINITION. One step of the machine: an engine step (spec/60_exceptions.md R320) or one host transaction (R359), as
the state's turns say; and the placing of an instruction where the next step fetches it. -/

namespace Sys2Proof.Machine

/-- The engine's step while RUN = 1 (R320): fetch check, fetch, decode, execute. -/
def engineStep (s : State) : Host.Outcome State Fault Refusal :=
  if fetchable s.pc then
    match decode (s.ifetch s.pc.toNat) with
    | .ok i => exec i s
    | .error _ => .next (s.raise illegalTrap (s.ifetch s.pc.toNat))
  else .next (s.raise ⟨.fetchFault, s.pc⟩ 0#32)

/-- The engine's turn: a step while RUN = 1; while RUN = 0 the engine takes none and keeps all its state
(R320, R345). -/
def engineTurn (s : State) : Host.Outcome State Fault Refusal := if s.run then engineStep s else .next s

/-- One step: the turn the state names, the engine's when none is named (R359). -/
def step (s : State) : Host.Outcome State Fault Refusal :=
  match s.sched with
  | [] => engineTurn s
  | .engine :: rest => engineTurn { s with sched := rest }
  | .host t :: rest => .next ({ s with sched := rest }.hostTurn t)

/-- `s` with the instruction whose bits are `w` at the next fetch, the engine running and every turn the engine's.
The pc is kept where it can fetch, else it becomes 0. It stands for the host's HOST_WR_IMEM and HOST_START
(R352, R354). -/
def State.withFetchWord (s : State) (nbits w : Nat) : State :=
  let pc := if fetchable s.pc then s.pc else 0#32
  { s.storeInstr pc.toNat (BitVec.ofNat 32 (w % 2 ^ nbits)) with
    pc := pc
    run := true
    halted := false
    fault := false
    sched := [] }

end Sys2Proof.Machine
end

