-- ==== Sys2Proof/Safety.lean ====
section
/-! DEFINITION. The terms claims are stated in: how a run ends (spec/60_exceptions.md R321, R360), what a step leaves
unchanged, what a taken fault leaves (R322, R330), when a kernel may run (spec/41_policy_kernel.md R181), and the
invariant every step keeps. -/

namespace Sys2Proof.Machine

/-! ## The end of a run (R321, R360) -/

/-- The three ends of a run (R321). -/
inductive RunEnd where
  | halted
  | faulted
  | stopped
  deriving DecidableEq, Repr

/-- The end a state shows; `none` while RUN = 1. At the last moment of a run it is that run's end (R321): faulted,
halted, or stopped by STOP or RESET with HALTED = FAULT = 0. DESIGN CHOICE, unsafe (log entry 14): an idle state may be
the end of no run (power-on reset before any START, or a HOST_RESET after a run that had already halted or faulted), and
R321 gives it no end; the model answers `stopped` there too, which then does not say how a run ended. -/
def State.runEnd (s : State) : Option RunEnd :=
  if s.run then none else if s.fault then some .faulted else if s.halted then some .halted else some .stopped

/-- The result may be trusted: halted, not faulted, no 32-bit result wrapped (R41, R360). -/
def State.trusted (s : State) : Prop := s.halted = true ∧ s.fault = false ∧ s.ovf = false

/-! ## What is left unchanged -/

/-- Everything but registers, pc, OVF and data memory: RUN, HALTED, FAULT, the fault record, KLEN, every byte of
instruction memory, and the model's own fields. -/
structure SameRest (s t : State) : Prop where
  run : t.run = s.run
  halted : t.halted = s.halted
  fault : t.fault = s.fault
  cause : t.cause = s.cause
  fpc : t.fpc = s.fpc
  faddr : t.faddr = s.faddr
  finst : t.finst = s.finst
  klen : t.klen = s.klen
  imem : ∀ a, t.imemByte a = s.imemByte a
  epoch : t.epoch = s.epoch
  sched : t.sched = s.sched
  replies : t.replies = s.replies

/-- Every scalar register but `rd` is unchanged. -/
def SameScalarsBut (rd : XReg) (s t : State) : Prop := ∀ r, r ≠ rd → t.readX r = s.readX r

/-- Every scalar register is unchanged. -/
def SameScalars (s t : State) : Prop := ∀ r, t.readX r = s.readX r

/-- Every vector register but `vd` is unchanged. -/
def SameVectorsBut (vd : VReg) (s t : State) : Prop := ∀ r, r ≠ vd → t.readV r = s.readV r

/-- Every vector register is unchanged. -/
def SameVectors (s t : State) : Prop := ∀ r, t.readV r = s.readV r

/-- Every byte of data memory is unchanged. -/
def SameDmem (s t : State) : Prop := ∀ a, t.dmemByte a = s.dmemByte a

/-- Every byte of data memory outside the `n` bytes at `a` is unchanged. -/
def SameDmemOutside (a n : Nat) (s t : State) : Prop := ∀ b, b < a ∨ a + n ≤ b → t.dmemByte b = s.dmemByte b

/-- The frame of an instruction that writes scalar register `rd` (and pc, and perhaps OVF). -/
structure OnlyScalar (rd : XReg) (s t : State) : Prop where
  scalars : SameScalarsBut rd s t
  vectors : SameVectors s t
  dmem : SameDmem s t
  rest : SameRest s t

/-- The frame of an instruction that writes vector register `vd` (and pc, and perhaps OVF). -/
structure OnlyVector (vd : VReg) (s t : State) : Prop where
  scalars : SameScalars s t
  vectors : SameVectorsBut vd s t
  dmem : SameDmem s t
  rest : SameRest s t

/-- The frame of an instruction that stores `n` bytes at `a` (and writes pc). -/
structure OnlyStore (a n : Nat) (s t : State) : Prop where
  scalars : SameScalars s t
  vectors : SameVectors s t
  ovf : t.ovf = s.ovf
  dmem : SameDmemOutside a n s t
  rest : SameRest s t

/-- The frame of an instruction that writes pc alone. -/
structure OnlyPc (s t : State) : Prop where
  scalars : SameScalars s t
  vectors : SameVectors s t
  ovf : t.ovf = s.ovf
  dmem : SameDmem s t
  rest : SameRest s t

/-- What a taken fault leaves (R322, R330): the engine stopped, FAULT set, the record written, and nothing else
changed: no register, no byte, not OVF, not KLEN, and pc still the faulting instruction's. -/
structure Faulted (cause : Cause) (info word : Word) (s t : State) : Prop where
  run : t.run = false
  fault : t.fault = true
  cause : t.cause = cause
  fpc : t.fpc = s.pc
  faddr : t.faddr = info
  finst : t.finst = word
  halted : t.halted = s.halted
  pc : t.pc = s.pc
  ovf : t.ovf = s.ovf
  klen : t.klen = s.klen
  scalars : SameScalars s t
  vectors : SameVectors s t
  dmem : SameDmem s t
  imem : ∀ a, t.imemByte a = s.imemByte a
  epoch : t.epoch = s.epoch
  sched : t.sched = s.sched
  replies : t.replies = s.replies

/-! ## The turn (R359) -/

/-- The next step is the engine's, and `rest` are the turns after it. -/
def EngineTurn (s : State) (rest : List Turn) : Prop :=
  s.sched = .engine :: rest ∨ (s.sched = [] ∧ rest = [])

/-- The engine is running, it is its turn, and the pc can be fetched from (R320, R78). -/
structure FetchReady (s : State) (rest : List Turn) : Prop where
  turn : EngineTurn s rest
  run : s.run = true
  aligned : s.pc.toNat % 4 = 0
  inside : s.pc.toNat + 4 ≤ 4096

/-- The word in instruction memory at the pc, its first byte least significant (R74). -/
def fetchedWord (s : State) : Word :=
  (s.imemByte (s.pc.toNat + 3) ++ s.imemByte (s.pc.toNat + 2) ++ s.imemByte (s.pc.toNat + 1) ++
    s.imemByte s.pc.toNat : BitVec 32)

/-! ## Kernels (R73, R181) -/

/-- Every check of R181 passes: KLEN a nonzero multiple of 16, and the three buffers 32-byte aligned and inside data
memory. -/
structure KernelReady (klen bu bt bw : Nat) : Prop where
  nonzero : 0 < klen
  multiple : klen % 16 = 0
  usAligned : bu % 32 = 0
  usInside : bu + 2 * klen ≤ 65536
  themAligned : bt % 32 = 0
  themInside : bt + 2 * klen ≤ 65536
  weightsAligned : bw % 32 = 0
  weightsInside : bw + 4 * klen ≤ 65536

/-- Element `i` of the int16 buffer at `base`: low byte at `base + 2i`, high byte after it (R73). -/
def bufferElement (s : State) (base i : Nat) : Int :=
  (s.dmemByte (base + 2 * i + 1) ++ s.dmemByte (base + 2 * i) : BitVec 16).toInt

/-! ## The invariant -/

/-- At most one of RUN, HALTED, FAULT is 1 (R40). -/
def AtMostOneStatus (s : State) : Prop :=
  (s.run = false ∨ s.halted = false) ∧ (s.run = false ∨ s.fault = false) ∧ (s.halted = false ∨ s.fault = false)

/-- What holds of every state a run can reach. -/
structure State.Inv (s : State) : Prop where
  /-- R40. -/
  oneStatus : AtMostOneStatus s
  /-- R31: the hard-wired register's slot. -/
  xZero : s.x[0] = 0#32
  /-- R71: data memory is canonical and inside its address space. -/
  dmemWf : s.dmem.wf Config.dmemSize
  /-- R70: instruction memory is canonical and inside its address space. -/
  imemWf : s.imem.wf Config.imemSize
  /-- R325, R330, R354: a cause is recorded exactly while FAULT is set. -/
  causeIffFault : s.cause ≠ .none ↔ s.fault = true
  /-- R42, R354: with no fault recorded, the record is 0. -/
  recordClear : s.cause = .none → s.fpc = 0#32 ∧ s.faddr = 0#32 ∧ s.finst = 0#32
  /-- R322, R330, R331: while the fault stands, pc is the faulting instruction's. -/
  faultPc : s.fault = true → s.fpc = s.pc
  /-- R325: FETCH_FAULT records the pc in FADDR and no word. -/
  fetchRecord : s.cause = .fetchFault → s.faddr = s.fpc ∧ s.finst = 0#32
  /-- R325: ILLEGAL_INSTR and DIV_BY_ZERO record 0 in FADDR. -/
  zeroRecord : s.cause = .illegalInstr ∨ s.cause = .divByZero → s.faddr = 0#32
  /-- R181, R325: KLEN_INVALID records a KLEN that is 0 or no multiple of 16. -/
  klenRecord : s.cause = .klenInvalid → s.faddr.toNat = 0 ∨ s.faddr.toNat % 16 ≠ 0
  /-- R76, R325: a misaligned address is no multiple of 32. -/
  misalignedRecord : s.cause = .loadMisaligned ∨ s.cause = .storeMisaligned → s.faddr.toNat % 32 ≠ 0
  /-- R325: every cause an instruction raises after decoding records a legal word. -/
  wordRecord : s.cause ≠ .none → s.cause ≠ .fetchFault → s.cause ≠ .illegalInstr → ∃ i, decode s.finst = .ok i

end Sys2Proof.Machine
end

