-- ==== Sys2Proof/Certificates/Slice0/Obligations.lean ====
section
/-! DEFINITION. The statements for the provers: what the numbered rules of spec/ say the instructions, the step, the
faults, reset and the host port do. Numbers of the spec (memory sizes, constants, ranges) are written out, so that a
statement does not lean on the definition it speaks about. -/

open Sys2Proof Sys2Proof.Machine

/-! ## Encoding (R100 to R116) -/

/-- The opcode map of R114 written out: mnemonic, match, mask. -/
def Sys2Proof.specOpcodeMap : List (String × Word × Word) :=
  [ ("HALT", 0x04000000#32, 0xFFFFFFFF#32), ("CSRR", 0x08000000#32, 0xFC3FF000#32),
    ("CSRW", 0x0C000000#32, 0xFFC3F000#32), ("ADD", 0x20000000#32, 0xFC003FFF#32),
    ("SUB", 0x24000000#32, 0xFC003FFF#32), ("MUL", 0x28000000#32, 0xFC003FFF#32),
    ("DIV", 0x2C000000#32, 0xFC003FFF#32), ("ADDI", 0x30000000#32, 0xFC000000#32),
    ("VALSCALE", 0x34000000#32, 0xFC003FFF#32), ("LW", 0x40000000#32, 0xFC000000#32),
    ("SW", 0x44000000#32, 0xFC000000#32), ("VLD", 0x48000000#32, 0xFC000000#32),
    ("VST", 0x4C000000#32, 0xFC000000#32), ("BEQ", 0x60000000#32, 0xFC000000#32),
    ("BNE", 0x64000000#32, 0xFC000000#32), ("BLT", 0x68000000#32, 0xFC000000#32),
    ("J", 0x6C000000#32, 0xFC000000#32), ("VZERO", 0x80000000#32, 0xFC3FFFFF#32),
    ("VSET1", 0x84000000#32, 0xFC03FFFF#32), ("VMIN16", 0x88000000#32, 0xFC003FFF#32),
    ("VMAX16", 0x8C000000#32, 0xFC003FFF#32), ("VMULLO16", 0x90000000#32, 0xFC003FFF#32),
    ("VMADD16", 0x94000000#32, 0xFC003FFF#32), ("VADD32", 0x98000000#32, 0xFC003FFF#32),
    ("VHSUM32", 0x9C000000#32, 0xFC03FFFF#32), ("KPOLICY", 0xC0000000#32, 0xFC0003FF#32),
    ("KVALUE", 0xC4000000#32, 0xFC00003F#32) ]

/-- R103 to R106, R108 to R111, R114: the number an instruction's word is, field by field: the opcode in bits
[31:26], then the register fields at bits 22, 18, 14, 10 and 6, the immediate's low bits, the CSR number. -/
def Sys2Proof.specWord : Instr → Int
  | .halt => 0x04000000
  | .csrr rd n => 0x08000000 + rd.val * 4194304 + n
  | .csrw n rs1 => 0x0C000000 + rs1.val * 262144 + n
  | .add rd rs1 rs2 => 0x20000000 + rd.val * 4194304 + rs1.val * 262144 + rs2.val * 16384
  | .sub rd rs1 rs2 => 0x24000000 + rd.val * 4194304 + rs1.val * 262144 + rs2.val * 16384
  | .mul rd rs1 rs2 => 0x28000000 + rd.val * 4194304 + rs1.val * 262144 + rs2.val * 16384
  | .div rd rs1 rs2 => 0x2C000000 + rd.val * 4194304 + rs1.val * 262144 + rs2.val * 16384
  | .addi rd rs1 z => 0x30000000 + rd.val * 4194304 + rs1.val * 262144 + z % 262144
  | .valscale rd rs1 rs2 => 0x34000000 + rd.val * 4194304 + rs1.val * 262144 + rs2.val * 16384
  | .lw rd rs1 z => 0x40000000 + rd.val * 4194304 + rs1.val * 262144 + z % 262144
  | .sw rt rs1 z => 0x44000000 + rt.val * 4194304 + rs1.val * 262144 + z % 262144
  | .vld vd rs1 z => 0x48000000 + vd.val * 4194304 + rs1.val * 262144 + z % 262144
  | .vst vt rs1 z => 0x4C000000 + vt.val * 4194304 + rs1.val * 262144 + z % 262144
  | .beq rs1 rs2 z => 0x60000000 + rs1.val * 4194304 + rs2.val * 262144 + z % 262144
  | .bne rs1 rs2 z => 0x64000000 + rs1.val * 4194304 + rs2.val * 262144 + z % 262144
  | .blt rs1 rs2 z => 0x68000000 + rs1.val * 4194304 + rs2.val * 262144 + z % 262144
  | .j z => 0x6C000000 + z % 67108864
  | .vzero vd => 0x80000000 + vd.val * 4194304
  | .vset1 vd rs1 => 0x84000000 + vd.val * 4194304 + rs1.val * 262144
  | .vmin16 vd vs1 vs2 => 0x88000000 + vd.val * 4194304 + vs1.val * 262144 + vs2.val * 16384
  | .vmax16 vd vs1 vs2 => 0x8C000000 + vd.val * 4194304 + vs1.val * 262144 + vs2.val * 16384
  | .vmullo16 vd vs1 vs2 => 0x90000000 + vd.val * 4194304 + vs1.val * 262144 + vs2.val * 16384
  | .vmadd16 vd vs1 vs2 => 0x94000000 + vd.val * 4194304 + vs1.val * 262144 + vs2.val * 16384
  | .vadd32 vd vs1 vs2 => 0x98000000 + vd.val * 4194304 + vs1.val * 262144 + vs2.val * 16384
  | .vhsum32 rd vs1 => 0x9C000000 + rd.val * 4194304 + vs1.val * 262144
  | .kpolicy rd rs1 rs2 rs3 =>
    0xC0000000 + rd.val * 4194304 + rs1.val * 262144 + rs2.val * 16384 + rs3.val * 1024
  | .kvalue rd rs1 rs2 rs3 rs4 =>
    0xC4000000 + rd.val * 4194304 + rs1.val * 262144 + rs2.val * 16384 + rs3.val * 1024 + rs4.val * 64

/-- R114, R115: decoding the encoded word of any well-formed instruction gives that instruction back. -/
def Obligations.DecodeOfEncode : Prop := ∀ i : Instr, i.wellFormed = true → decode (encode i) = .ok i

/-- R112, R115: every legal word is the encoding of the one instruction it decodes to, and that instruction's
operands fit its fields: the decoder ignores no bit. -/
def Obligations.EncodeOfDecode : Prop :=
  ∀ (w : Word) (i : Instr), decode w = .ok i → i.wellFormed = true ∧ encode i = w

/-- R114: a word decodes to an instruction of a row exactly when the word under the row's mask is the row's match. -/
def Obligations.LegalWordsAreTheOpcodeMap : Prop :=
  ∀ (w : Word) (name : String), (∃ i, decode w = .ok i ∧ i.mnemonic = name) ↔
    ∃ r ∈ specOpcodeMap, r.1 = name ∧ w &&& r.2.2 = r.2.1

/-- R102 to R106, R114: where each format puts the opcode, the register fields, the immediate and the CSR number. -/
def Obligations.EncodedWordFieldByField : Prop :=
  ∀ i : Instr, i.wellFormed = true → ((encode i).toNat : Int) = specWord i

/-- R116: the worked encodings, read by the decoder. -/
def Obligations.WorkedEncodingsDecode : Prop :=
  decode 0x30000000#32 = .ok (.addi 0 0 0) ∧ decode 0x04000000#32 = .ok .halt ∧
  decode 0x22058000#32 = .ok (.add 8 1 6) ∧ decode 0x95548000#32 = .ok (.vmadd16 5 5 2) ∧
  decode 0x48600000#32 = .ok (.vld 1 8 0) ∧ decode 0x31980020#32 = .ok (.addi 6 6 32) ∧
  decode 0x3143FFFF#32 = .ok (.addi 5 0 (-1)) ∧ decode 0x6997FFF1#32 = .ok (.blt 6 5 (-15)) ∧
  decode 0x09400010#32 = .ok (.csrr 5 0x010) ∧ decode 0xC2C48C00#32 = .ok (.kpolicy 11 1 2 3) ∧
  decode 0xC7048D00#32 = .ok (.kvalue 12 1 2 3 4)

/-! ## The step (R320, R326, R345, R359) -/

/-- R320: when the engine runs, it is its turn and the word at pc decodes, the step is that instruction's execution. -/
def Obligations.StepRunsDecodedInstruction : Prop :=
  ∀ (s : State) (rest : List Turn) (i : Instr), FetchReady s rest → decode (fetchedWord s) = .ok i →
    step s = exec i { s with sched := rest }

/-- R78, R326, and R112, R320, R325 for the illegal word: in the engine's turn while it runs, a pc that is misaligned
or not inside instruction memory raises FETCH_FAULT with
FADDR = pc and FINST 0; a word at a good pc that is illegal raises ILLEGAL_INSTR with FADDR 0 and
FINST the word. -/
def Obligations.FetchAndDecodeFault : Prop :=
  ∀ (s : State) (rest : List Turn), EngineTurn s rest → s.run = true →
    (s.pc.toNat % 4 ≠ 0 ∨ s.pc.toNat + 4 > 4096 → ∃ t, step s = .next t ∧
      Faulted .fetchFault s.pc 0#32 { s with sched := rest } t) ∧
    (∀ e, s.pc.toNat % 4 = 0 → s.pc.toNat + 4 ≤ 4096 → decode (fetchedWord s) = .error e → ∃ t, step s = .next t ∧
      Faulted .illegalInstr 0#32 (fetchedWord s) { s with sched := rest } t)

/-- R320, R345: while RUN = 0 the engine takes no step and keeps all its state. That its turn then answers the same
state, and no stop, is the model's choice (log entry 3). -/
def Obligations.IdleEngineKeepsItsState : Prop :=
  ∀ (s : State) (rest : List Turn), EngineTurn s rest → s.run = false → step s = .next { s with sched := rest }

/-- Overflow, every failed check and the idle turn leave a next state. That a fault of AOMAC-1 is a next state, and that
the idle engine's turn answers one, are the model's reading (log entries 13 and 3), resting on R330 and R345. -/
def Obligations.EveryStepAnswersNext : Prop := ∀ s : State, ∃ t, step s = .next t

/-- Placing a legal word where the next step fetches makes that step its execution, from every state. `withFetchWord`
is the model's stand-in for the host's load and START (log entry 5). -/
def Obligations.PlacedWordIsRunNext : Prop :=
  ∀ (s : State) (w : Nat) (i : Instr), decode (BitVec.ofNat 32 (w % 2 ^ 32)) = .ok i →
    step (s.withFetchWord 32 w) = exec i (s.withFetchWord 32 w)

/-! ## Invariants and whole-machine rules -/

/-- Every step, the engine's or the host's, from every state that meets the invariant, leaves one that meets it. -/
def Obligations.EveryStepKeepsTheInvariant : Prop := ∀ s t : State, s.Inv → step s = .next t → t.Inv

/-- The state after power-on reset meets the invariant. -/
def Obligations.ResetMeetsTheInvariant : Prop := State.reset.Inv

/-- R37: the pc is misaligned only if the host started the engine at a misaligned address. -/
def Obligations.PcStaysAligned : Prop :=
  ∀ s t : State, s.pc.toNat % 4 = 0 → (∀ p rest, s.sched = .host (.start p) :: rest → p.toNat % 4 = 0) →
    step s = .next t → t.pc.toNat % 4 = 0

/-- R70, R89: the engine's turn changes no byte of instruction memory. -/
def Obligations.EngineNeverWritesImem : Prop :=
  ∀ s t : State, engineTurn s = .next t → ∀ a, t.imemByte a = s.imemByte a

/-- R40: RUN, HALTED and FAULT move by START, HALT, a fault, STOP and reset, and in no other way; and at most one of
them is 1 after a step if at most one was before. -/
def Obligations.StatusBitsMoveOnlyAsRuled : Prop :=
  ∀ s t : State, step s = .next t →
    (AtMostOneStatus s → AtMostOneStatus t) ∧
    ((t.run = s.run ∧ t.halted = s.halted ∧ t.fault = s.fault) ∨
      (∃ p rest, s.sched = .host (.start p) :: rest ∧ s.run = false ∧
        t.run = true ∧ t.halted = false ∧ t.fault = false) ∨
      (∃ rest, FetchReady s rest ∧ decode (fetchedWord s) = .ok .halt ∧
        t.run = false ∧ t.halted = true ∧ t.fault = s.fault) ∨
      (∃ rest, EngineTurn s rest ∧ s.run = true ∧ t.cause ≠ .none ∧
        t.run = false ∧ t.fault = true ∧ t.halted = s.halted) ∨
      (∃ rest, s.sched = .host .stop :: rest ∧ t.run = false ∧ t.halted = s.halted ∧ t.fault = s.fault) ∨
      (∃ rest, s.sched = .host .reset :: rest ∧ t.run = false ∧ t.halted = false ∧ t.fault = false))

/-- R41: an instruction clears OVF only by CSRW STATUS with bit 3 = 0, and changes it at all only if it is one of the
listed ones. -/
def Obligations.OvfMovesOnlyAsRuled : Prop :=
  ∀ (i : Instr) (s t : State), exec i s = .next t →
    (s.ovf = true → t.ovf = true ∨ ∃ rs1, i = .csrw 0x000 rs1 ∧ (s.readX rs1).getLsbD 3 = false) ∧
    (t.ovf ≠ s.ovf → i.mnemonic ∈ ["ADD", "SUB", "MUL", "ADDI", "DIV", "VMADD16", "VADD32", "VHSUM32", "KPOLICY",
      "VALSCALE", "KVALUE", "CSRW"])

/-- R43, R302: no instruction but CSRW KLEN changes KLEN, and it writes its source, whatever the value. -/
def Obligations.KlenMovesOnlyByCsrw : Prop :=
  ∀ (i : Instr) (s t : State), exec i s = .next t →
    t.klen = s.klen ∨ ∃ rs1, i = .csrw 0x010 rs1 ∧ t.klen = s.readX rs1

/-- R32, R36: a scalar register changes only as the destination of an instruction listed as writing scalar registers,
a vector register only as the destination of one listed as writing vector registers. -/
def Obligations.RegistersMoveOnlyAsDestinations : Prop :=
  ∀ (i : Instr) (s t : State), exec i s = .next t →
    (∀ r, t.readX r ≠ s.readX r → r ≠ 0 ∧
      ((∃ a b, i = .add r a b ∨ i = .sub r a b ∨ i = .mul r a b ∨ i = .div r a b ∨ i = .valscale r a b) ∨
        (∃ a z, i = .addi r a z ∨ i = .lw r a z) ∨ (∃ n, i = .csrr r n) ∨ (∃ a, i = .vhsum32 r a) ∨
        (∃ a b c, i = .kpolicy r a b c) ∨ (∃ a b c d, i = .kvalue r a b c d))) ∧
    (∀ r, t.readV r ≠ s.readV r →
      (i = .vzero r ∨ (∃ a, i = .vset1 r a) ∨ (∃ a z, i = .vld r a z) ∨
        (∃ a b, i = .vmin16 r a b ∨ i = .vmax16 r a b ∨ i = .vmullo16 r a b ∨ i = .vmadd16 r a b ∨
          i = .vadd32 r a b)))

/-- R71, R81: a byte of data memory changes only by SW or VST, and lies in the bytes it stores to: those at its
effective address, base plus immediate mod 2^32. -/
def Obligations.OnlyStoresChangeDmem : Prop :=
  ∀ (i : Instr) (s t : State), exec i s = .next t → ∀ b, t.dmemByte b ≠ s.dmemByte b →
    (∃ rt rs1 z, i = .sw rt rs1 z ∧ (effectiveAddress (s.readX rs1) z).toNat ≤ b ∧
      b < (effectiveAddress (s.readX rs1) z).toNat + 4) ∨
    (∃ vt rs1 z, i = .vst vt rs1 z ∧ (effectiveAddress (s.readX rs1) z).toNat ≤ b ∧
      b < (effectiveAddress (s.readX rs1) z).toNat + 32)

/-- R322, R330: when a step of the running engine faults, nothing has changed but RUN, FAULT and the record, which
holds the pc and the fetched word (0 for FETCH_FAULT). -/
def Obligations.FaultsArePrecise : Prop :=
  ∀ (s t : State) (rest : List Turn), EngineTurn s rest → s.run = true → s.fault = false →
    step s = .next t → t.fault = true →
    t.cause ≠ .none ∧
    Faulted t.cause t.faddr (if t.cause = .fetchFault then 0#32 else fetchedWord s) { s with sched := rest } t

/-- R331: while a fault stands, a step leaves the fault record and FAULT as they are, unless it is a HOST_START or a
HOST_RESET. -/
def Obligations.FaultRecordStandsUntilStartOrReset : Prop :=
  ∀ s t : State, s.Inv → s.fault = true → step s = .next t →
    (∀ p rest, s.sched ≠ .host (.start p) :: rest) → (∀ rest, s.sched ≠ .host .reset :: rest) →
    t.fault = true ∧ t.cause = s.cause ∧ t.fpc = s.fpc ∧ t.faddr = s.faddr ∧ t.finst = s.finst

/-! ## Scalar arithmetic (R230 to R235) -/

/-- R231: ADD writes the exact sum wrapped to int32, sets OVF when it does not fit, and changes nothing else. -/
def Obligations.AddWritesWrappedSum : Prop :=
  ∀ (rd rs1 rs2 : XReg) (s : State), ∃ t, exec (.add rd rs1 rs2) s = .next t ∧
    ((t.readX rd).toInt = if rd = 0 then 0 else
      ((s.readX rs1).toInt + (s.readX rs2).toInt).bmod 4294967296) ∧
    (t.ovf = true ↔ s.ovf = true ∨ (s.readX rs1).toInt + (s.readX rs2).toInt < -2147483648 ∨
      (s.readX rs1).toInt + (s.readX rs2).toInt > 2147483647) ∧
    t.pc = s.pc + 4#32 ∧ OnlyScalar rd s t

/-- R232: SUB writes the exact difference wrapped to int32, sets OVF when it does not fit, and changes nothing else. -/
def Obligations.SubWritesWrappedDifference : Prop :=
  ∀ (rd rs1 rs2 : XReg) (s : State), ∃ t, exec (.sub rd rs1 rs2) s = .next t ∧
    ((t.readX rd).toInt = if rd = 0 then 0 else
      ((s.readX rs1).toInt - (s.readX rs2).toInt).bmod 4294967296) ∧
    (t.ovf = true ↔ s.ovf = true ∨ (s.readX rs1).toInt - (s.readX rs2).toInt < -2147483648 ∨
      (s.readX rs1).toInt - (s.readX rs2).toInt > 2147483647) ∧
    t.pc = s.pc + 4#32 ∧ OnlyScalar rd s t

/-- R233: MUL writes the low 32 bits of the exact product, sets OVF when it does not fit, and changes nothing else. -/
def Obligations.MulWritesWrappedProduct : Prop :=
  ∀ (rd rs1 rs2 : XReg) (s : State), ∃ t, exec (.mul rd rs1 rs2) s = .next t ∧
    ((t.readX rd).toInt = if rd = 0 then 0 else
      ((s.readX rs1).toInt * (s.readX rs2).toInt).bmod 4294967296) ∧
    (t.ovf = true ↔ s.ovf = true ∨ (s.readX rs1).toInt * (s.readX rs2).toInt < -2147483648 ∨
      (s.readX rs1).toInt * (s.readX rs2).toInt > 2147483647) ∧
    t.pc = s.pc + 4#32 ∧ OnlyScalar rd s t

/-- R235: ADDI writes the exact sum with the signed immediate wrapped to int32, sets OVF when it does not fit, and
changes nothing else. -/
def Obligations.AddiWritesWrappedSum : Prop :=
  ∀ (rd rs1 : XReg) (imm : Int) (s : State), ∃ t, exec (.addi rd rs1 imm) s = .next t ∧
    ((t.readX rd).toInt = if rd = 0 then 0 else ((s.readX rs1).toInt + imm).bmod 4294967296) ∧
    (t.ovf = true ↔ s.ovf = true ∨ (s.readX rs1).toInt + imm < -2147483648 ∨
      (s.readX rs1).toInt + imm > 2147483647) ∧
    t.pc = s.pc + 4#32 ∧ OnlyScalar rd s t

/-- R234: DIV by a nonzero divisor writes the quotient truncated toward zero, and sets OVF in the one case -2^31 / -1,
which writes -2^31; it changes nothing else. DIV by zero raises DIV_BY_ZERO with FADDR 0 and writes no register. -/
def Obligations.DivTruncatesTowardZeroOrFaults : Prop :=
  ∀ (rd rs1 rs2 : XReg) (s : State),
    (s.readX rs2 ≠ 0#32 → ∃ t, exec (.div rd rs1 rs2) s = .next t ∧
      (t.readX rd).toInt = (if rd = 0 then 0
        else if (s.readX rs1).toInt = -2147483648 ∧ (s.readX rs2).toInt = -1 then -2147483648
        else (s.readX rs1).toInt.tdiv (s.readX rs2).toInt) ∧
      (t.ovf = true ↔ s.ovf = true ∨ ((s.readX rs1).toInt = -2147483648 ∧ (s.readX rs2).toInt = -1)) ∧
      t.pc = s.pc + 4#32 ∧ OnlyScalar rd s t) ∧
    (s.readX rs2 = 0#32 → ∃ t, exec (.div rd rs1 rs2) s = .next t ∧
      Faulted .divByZero 0#32 (encode (.div rd rs1 rs2)) s t)

/-! ## The final scaling (R201) -/

/-- R201: VALSCALE writes `tdiv(wrap32(s * 400), 16320)` for `s = tdiv(output, 255) + bias`, with bias the low 16 bits
of its register; OVF sets exactly when s ≥ 5368710 or s ≤ -5368710; the result lies in [-131586, 131586]. -/
def Obligations.ValscaleWritesScaledOutput : Prop :=
  ∀ (rd rs1 rs2 : XReg) (s : State),
    let sum := (s.readX rs1).toInt.tdiv 255 + ((s.readX rs2).extractLsb' 0 16).toInt
    ∃ t, exec (.valscale rd rs1 rs2) s = .next t ∧
      ((t.readX rd).toInt = if rd = 0 then 0 else ((sum * 400).bmod 4294967296).tdiv 16320) ∧
      -131586 ≤ (t.readX rd).toInt ∧ (t.readX rd).toInt ≤ 131586 ∧
      (t.ovf = true ↔ s.ovf = true ∨ sum ≥ 5368710 ∨ sum ≤ -5368710) ∧
      t.pc = s.pc + 4#32 ∧ OnlyScalar rd s t

/-! ## Loads and stores (R76, R260 to R264) -/

/-- R261: LW writes the four bytes at its address, the lowest least significant; it raises LOAD_MISALIGNED first, then
LOAD_ACCESS, with FADDR the address. -/
def Obligations.LwLoadsLittleEndianWordOrFaults : Prop :=
  ∀ (rd : XReg) (rs1 : XReg) (imm : Int) (s : State) (ea : Word),
    (ea.toNat : Int) = (((s.readX rs1).toNat : Int) + imm) % 4294967296 →
    (ea.toNat % 4 = 0 → ea.toNat + 4 ≤ 65536 → ∃ t, exec (.lw rd rs1 imm) s = .next t ∧
      (t.readX rd = if rd = 0 then 0#32 else (s.dmemByte (ea.toNat + 3) ++ s.dmemByte (ea.toNat + 2) ++
        s.dmemByte (ea.toNat + 1) ++ s.dmemByte ea.toNat : BitVec 32)) ∧
      t.ovf = s.ovf ∧ t.pc = s.pc + 4#32 ∧ OnlyScalar rd s t) ∧
    (ea.toNat % 4 ≠ 0 → ∃ t, exec (.lw rd rs1 imm) s = .next t ∧ Faulted .loadMisaligned ea (encode (.lw rd rs1 imm)) s t) ∧
    (ea.toNat % 4 = 0 → ea.toNat + 4 > 65536 → ∃ t, exec (.lw rd rs1 imm) s = .next t ∧
      Faulted .loadAccess ea (encode (.lw rd rs1 imm)) s t)

/-- R262: SW stores its register's four bytes at its address, the least significant lowest, and no other byte; it raises
STORE_MISALIGNED first, then STORE_ACCESS, with FADDR the address, and then stores nothing. -/
def Obligations.SwStoresLittleEndianWordOrFaults : Prop :=
  ∀ (rt : XReg) (rs1 : XReg) (imm : Int) (s : State) (ea : Word),
    (ea.toNat : Int) = (((s.readX rs1).toNat : Int) + imm) % 4294967296 →
    (ea.toNat % 4 = 0 → ea.toNat + 4 ≤ 65536 → ∃ t, exec (.sw rt rs1 imm) s = .next t ∧
      (∀ i, i < 4 → t.dmemByte (ea.toNat + i) = (s.readX rt).extractLsb' (8 * i) 8) ∧
      t.pc = s.pc + 4#32 ∧ OnlyStore ea.toNat 4 s t) ∧
    (ea.toNat % 4 ≠ 0 → ∃ t, exec (.sw rt rs1 imm) s = .next t ∧ Faulted .storeMisaligned ea (encode (.sw rt rs1 imm)) s t) ∧
    (ea.toNat % 4 = 0 → ea.toNat + 4 > 65536 → ∃ t, exec (.sw rt rs1 imm) s = .next t ∧
      Faulted .storeAccess ea (encode (.sw rt rs1 imm)) s t)

/-- R263, R73: VLD writes element k from the bytes at ea + 2k (low) and ea + 2k + 1 (high); it raises LOAD_MISALIGNED
first, then LOAD_ACCESS, with FADDR the address. -/
def Obligations.VldLoadsElementsOrFaults : Prop :=
  ∀ (vd : VReg) (rs1 : XReg) (imm : Int) (s : State) (ea : Word),
    (ea.toNat : Int) = (((s.readX rs1).toNat : Int) + imm) % 4294967296 →
    (ea.toNat % 32 = 0 → ea.toNat + 32 ≤ 65536 → ∃ t, exec (.vld vd rs1 imm) s = .next t ∧
      (∀ k, k < 16 → (t.readV vd).extractLsb' (16 * k) 16 =
        (s.dmemByte (ea.toNat + 2 * k + 1) ++ s.dmemByte (ea.toNat + 2 * k) : BitVec 16)) ∧
      t.ovf = s.ovf ∧ t.pc = s.pc + 4#32 ∧ OnlyVector vd s t) ∧
    (ea.toNat % 32 ≠ 0 → ∃ t, exec (.vld vd rs1 imm) s = .next t ∧ Faulted .loadMisaligned ea (encode (.vld vd rs1 imm)) s t) ∧
    (ea.toNat % 32 = 0 → ea.toNat + 32 > 65536 → ∃ t, exec (.vld vd rs1 imm) s = .next t ∧
      Faulted .loadAccess ea (encode (.vld vd rs1 imm)) s t)

/-- R264: VST stores its register's 32 bytes at its address, the least significant lowest, and no other byte; it raises
STORE_MISALIGNED first, then STORE_ACCESS, with FADDR the address, and then stores nothing. -/
def Obligations.VstStoresVectorBytesOrFaults : Prop :=
  ∀ (vt : VReg) (rs1 : XReg) (imm : Int) (s : State) (ea : Word),
    (ea.toNat : Int) = (((s.readX rs1).toNat : Int) + imm) % 4294967296 →
    (ea.toNat % 32 = 0 → ea.toNat + 32 ≤ 65536 → ∃ t, exec (.vst vt rs1 imm) s = .next t ∧
      (∀ i, i < 32 → t.dmemByte (ea.toNat + i) = (s.readV vt).extractLsb' (8 * i) 8) ∧
      t.pc = s.pc + 4#32 ∧ OnlyStore ea.toNat 32 s t) ∧
    (ea.toNat % 32 ≠ 0 → ∃ t, exec (.vst vt rs1 imm) s = .next t ∧ Faulted .storeMisaligned ea (encode (.vst vt rs1 imm)) s t) ∧
    (ea.toNat % 32 = 0 → ea.toNat + 32 > 65536 → ∃ t, exec (.vst vt rs1 imm) s = .next t ∧
      Faulted .storeAccess ea (encode (.vst vt rs1 imm)) s t)

/-- R75: a word loaded at a + 4j after a vector was stored at a is lane j of that vector. -/
def Obligations.WordAfterVectorStoreIsLane : Prop :=
  ∀ (vt : VReg) (rd rs1 : XReg) (s : State) (j : Nat), rd ≠ 0 → j < 8 →
    (s.readX rs1).toNat % 32 = 0 → (s.readX rs1).toNat + 32 ≤ 65536 →
    ∃ t u, exec (.vst vt rs1 0) s = .next t ∧ exec (.lw rd rs1 (4 * j)) t = .next u ∧
      u.readX rd = (s.readV vt).extractLsb' (32 * j) 32

/-! ## Control transfer (R280 to R284) -/

/-- R281, R282, R283: BEQ, BNE and BLT go to pc + 4 * offset mod 2^32 when their registers are equal, differ, are in
signed order; else to pc + 4; they change nothing else. -/
def Obligations.BranchesGoWhereTheySay : Prop :=
  ∀ (rs1 rs2 : XReg) (off : Int) (s : State),
    (∃ t, exec (.beq rs1 rs2 off) s = .next t ∧ OnlyPc s t ∧ (t.pc.toNat : Int) =
      ((s.pc.toNat : Int) + if s.readX rs1 = s.readX rs2 then 4 * off else 4) % 4294967296) ∧
    (∃ t, exec (.bne rs1 rs2 off) s = .next t ∧ OnlyPc s t ∧ (t.pc.toNat : Int) =
      ((s.pc.toNat : Int) + if s.readX rs1 = s.readX rs2 then 4 else 4 * off) % 4294967296) ∧
    (∃ t, exec (.blt rs1 rs2 off) s = .next t ∧ OnlyPc s t ∧ (t.pc.toNat : Int) =
      ((s.pc.toNat : Int) + if (s.readX rs1).toInt < (s.readX rs2).toInt then 4 * off else 4) % 4294967296)

/-- R284: J goes to pc + 4 * offset mod 2^32 and writes no register. -/
def Obligations.JumpGoesToItsTarget : Prop :=
  ∀ (off : Int) (s : State), ∃ t, exec (.j off) s = .next t ∧ OnlyPc s t ∧
    (t.pc.toNat : Int) = ((s.pc.toNat : Int) + 4 * off) % 4294967296

/-! ## System instructions (R300 to R302) -/

/-- R325: the number of each cause, as CAUSE reads (R42). -/
def Sys2Proof.specCauseCode : Cause → Word
  | .none => 0#32
  | .illegalInstr => 1#32
  | .fetchFault => 2#32
  | .loadMisaligned => 3#32
  | .loadAccess => 4#32
  | .storeMisaligned => 5#32
  | .storeAccess => 6#32
  | .klenInvalid => 7#32
  | .divByZero => 8#32

/-- R300: HALT clears RUN, sets HALTED, leaves pc at its own address, and changes nothing else. -/
def Obligations.HaltStopsInPlace : Prop :=
  ∀ s : State, exec .halt s = .next { s with run := false, halted := true }

/-- R301: CSRR writes what the engine reads from each of the 13 registers: STATUS as RUN = 1, HALTED = FAULT = 0 and OVF
in bit 3, CAUSE by the codes of R325, the rest of the fault record, KLEN, and the constants; any other number raises
ILLEGAL_INSTR with FADDR 0. -/
def Obligations.CsrrReadsTheMapOrFaults : Prop :=
  ∀ (rd : XReg) (s : State) (n : Nat),
    (∀ value : Word, (n, value) ∈ [(0x000, if s.ovf then 9#32 else 1#32), (0x001, specCauseCode s.cause), (0x002, s.fpc),
        (0x003, s.faddr), (0x004, s.finst), (0x010, s.klen), (0x020, 255#32), (0x021, 64#32), (0x022, 400#32),
        (0x023, 32#32), (0x030, 0x414F4D01#32), (0x031, 65536#32), (0x032, 4096#32)] →
      ∃ t, exec (.csrr rd n) s = .next t ∧ (t.readX rd = if rd = 0 then 0#32 else value) ∧
        t.ovf = s.ovf ∧ t.pc = s.pc + 4#32 ∧ OnlyScalar rd s t) ∧
    (n ∉ [0x000, 0x001, 0x002, 0x003, 0x004, 0x010, 0x020, 0x021, 0x022, 0x023, 0x030, 0x031, 0x032] →
      ∃ t, exec (.csrr rd n) s = .next t ∧ Faulted .illegalInstr 0#32 (encode (.csrr rd n)) s t)

/-- R302: CSRW STATUS moves bit 3 of its source into OVF and nothing else; CSRW KLEN writes KLEN, any value; any other
number raises ILLEGAL_INSTR with FADDR 0. -/
def Obligations.CsrwWritesStatusAndKlenOrFaults : Prop :=
  ∀ (rs1 : XReg) (s : State),
    exec (.csrw 0x000 rs1) s = .next { s with ovf := (s.readX rs1).getLsbD 3, pc := s.pc + 4#32 } ∧
    exec (.csrw 0x010 rs1) s = .next { s with klen := s.readX rs1, pc := s.pc + 4#32 } ∧
    (∀ n, n ≠ 0x000 → n ≠ 0x010 →
      ∃ t, exec (.csrw n rs1) s = .next t ∧ Faulted .illegalInstr 0#32 (encode (.csrw n rs1)) s t)

/-! ## Vector primitives (R141 to R149) -/

/-- R141, R142: VZERO makes every element 0; VSET1 makes every element the low 16 bits of its scalar. -/
def Obligations.VzeroAndVset1FillElements : Prop :=
  ∀ (vd : VReg) (rs1 : XReg) (s : State),
    (∃ t, exec (.vzero vd) s = .next t ∧ (∀ k, k < 16 → (t.readV vd).extractLsb' (16 * k) 16 = 0#16) ∧
      t.ovf = s.ovf ∧ t.pc = s.pc + 4#32 ∧ OnlyVector vd s t) ∧
    (∃ t, exec (.vset1 vd rs1) s = .next t ∧
      (∀ k, k < 16 → (t.readV vd).extractLsb' (16 * k) 16 = (s.readX rs1).extractLsb' 0 16) ∧
      t.ovf = s.ovf ∧ t.pc = s.pc + 4#32 ∧ OnlyVector vd s t)

/-- R143, R144: VMIN16 and VMAX16 write the signed smaller and larger of each pair of elements. -/
def Obligations.VminAndVmaxAreSignedElementwise : Prop :=
  ∀ (vd vs1 vs2 : VReg) (s : State),
    (∃ t, exec (.vmin16 vd vs1 vs2) s = .next t ∧
      (∀ k, k < 16 → (e16 (t.readV vd) k).toInt = min (e16 (s.readV vs1) k).toInt (e16 (s.readV vs2) k).toInt) ∧
      t.ovf = s.ovf ∧ t.pc = s.pc + 4#32 ∧ OnlyVector vd s t) ∧
    (∃ t, exec (.vmax16 vd vs1 vs2) s = .next t ∧
      (∀ k, k < 16 → (e16 (t.readV vd) k).toInt = max (e16 (s.readV vs1) k).toInt (e16 (s.readV vs2) k).toInt) ∧
      t.ovf = s.ovf ∧ t.pc = s.pc + 4#32 ∧ OnlyVector vd s t)

/-- R145: VMULLO16 keeps the low 16 bits of each exact element product and leaves OVF alone. -/
def Obligations.VmulloKeepsLowHalves : Prop :=
  ∀ (vd vs1 vs2 : VReg) (s : State), ∃ t, exec (.vmullo16 vd vs1 vs2) s = .next t ∧
    (∀ k, k < 16 → (e16 (t.readV vd) k).toInt =
      ((e16 (s.readV vs1) k).toInt * (e16 (s.readV vs2) k).toInt).bmod 65536) ∧
    t.ovf = s.ovf ∧ t.pc = s.pc + 4#32 ∧ OnlyVector vd s t

/-- R146: VMADD16 writes each lane's sum of two element products, exact but for the one case in which all four
elements are -32768: that lane is written -2^31 and OVF sets; OVF sets in no other case. -/
def Obligations.VmaddSumsPairsOfProducts : Prop :=
  ∀ (vd vs1 vs2 : VReg) (s : State),
    let allMin (j : Nat) := (e16 (s.readV vs1) (2 * j)).toInt = -32768 ∧ (e16 (s.readV vs1) (2 * j + 1)).toInt = -32768 ∧
      (e16 (s.readV vs2) (2 * j)).toInt = -32768 ∧ (e16 (s.readV vs2) (2 * j + 1)).toInt = -32768
    ∃ t, exec (.vmadd16 vd vs1 vs2) s = .next t ∧
      (∀ j, j < 8 → (allMin j → (e32 (t.readV vd) j).toInt = -2147483648) ∧
        (¬ allMin j → (e32 (t.readV vd) j).toInt =
          (e16 (s.readV vs1) (2 * j)).toInt * (e16 (s.readV vs2) (2 * j)).toInt +
            (e16 (s.readV vs1) (2 * j + 1)).toInt * (e16 (s.readV vs2) (2 * j + 1)).toInt)) ∧
      (t.ovf = true ↔ s.ovf = true ∨ ∃ j, j < 8 ∧ allMin j) ∧ t.pc = s.pc + 4#32 ∧ OnlyVector vd s t

/-- R147: VADD32 writes each lane's exact sum wrapped to int32 and sets OVF when some lane's sum does not fit. -/
def Obligations.VaddWrapsEachLane : Prop :=
  ∀ (vd vs1 vs2 : VReg) (s : State), ∃ t, exec (.vadd32 vd vs1 vs2) s = .next t ∧
    (∀ j, j < 8 → e32 (t.readV vd) j = e32 (s.readV vs1) j + e32 (s.readV vs2) j) ∧
    (t.ovf = true ↔ s.ovf = true ∨ ∃ j, j < 8 ∧
      ((e32 (s.readV vs1) j).toInt + (e32 (s.readV vs2) j).toInt < -2147483648 ∨
        (e32 (s.readV vs1) j).toInt + (e32 (s.readV vs2) j).toInt > 2147483647)) ∧
    t.pc = s.pc + 4#32 ∧ OnlyVector vd s t

/-- R148: VHSUM32 writes the exact sum of the eight lanes wrapped once to int32 and sets OVF when it does not fit. -/
def Obligations.VhsumSumsTheLanes : Prop :=
  ∀ (rd : XReg) (vs1 : VReg) (s : State),
    let sum := (Finset.range 8).sum (fun j => (e32 (s.readV vs1) j).toInt)
    ∃ t, exec (.vhsum32 rd vs1) s = .next t ∧
      ((t.readX rd).toInt = if rd = 0 then 0 else sum.bmod 4294967296) ∧
      (t.ovf = true ↔ s.ovf = true ∨ sum < -2147483648 ∨ sum > 2147483647) ∧
      t.pc = s.pc + 4#32 ∧ OnlyScalar rd s t

/-- R149: lanes of VMADD16 results added by VADD32 into one accumulator that starts at zero, then summed by VHSUM32,
give the wrapped exact sum of every element product, and so the same value in every order of the terms. -/
def Obligations.AccumulationIsTheExactSumInAnyOrder : Prop :=
  ∀ terms terms' : List (VWord × VWord), terms.Perm terms' →
    hsum (accumulate terms') = hsum (accumulate terms) ∧
    (hsum (accumulate terms)).toInt = Int.bmod ((terms.map (fun p =>
      (Finset.range 16).sum (fun k => (e16 p.1 k).toInt * (e16 p.2 k).toInt))).sum) 4294967296

/-! ## The fused kernels (R180 to R186, R200 to R207) -/

/-- R182, R184: KPOLICY on buffers that pass the checks writes the cross sum, each inner product truncated to 16 bits,
wrapped to int32; OVF sets when the exact sum does not fit; no vector register and no byte of memory changes. -/
def Obligations.KpolicyWritesCrossSum : Prop :=
  ∀ (rd rs1 rs2 rs3 : XReg) (s : State),
    let us := bufferElement s (s.readX rs1).toNat
    let them := bufferElement s (s.readX rs2).toNat
    let w := bufferElement s (s.readX rs3).toNat
    let len := s.klen.toNat
    let sum := (Finset.range len).sum (fun i => (us i * w i).bmod 65536 * them i) +
      (Finset.range len).sum (fun i => (them i * w (len + i)).bmod 65536 * us i)
    KernelReady len (s.readX rs1).toNat (s.readX rs2).toNat (s.readX rs3).toNat →
    ∃ t, exec (.kpolicy rd rs1 rs2 rs3) s = .next t ∧
      ((t.readX rd).toInt = if rd = 0 then 0 else sum.bmod 4294967296) ∧
      (t.ovf = true ↔ s.ovf = true ∨ sum < -2147483648 ∨ sum > 2147483647) ∧
      t.pc = s.pc + 4#32 ∧ OnlyScalar rd s t

/-- R201 to R204: KVALUE on buffers that pass the checks clips every element to [0, 255], sums `c * lo16(c * w)` over
both sides, wraps the sum and scales it as VALSCALE does with the low 16 bits of the bias register; OVF sets when the
sum or the product by 400 does not fit. -/
def Obligations.KvalueWritesScaledClippedSum : Prop :=
  ∀ (rd rs1 rs2 rs3 rs4 : XReg) (s : State),
    let us (i : Nat) := min (max (bufferElement s (s.readX rs1).toNat i) 0) 255
    let them (i : Nat) := min (max (bufferElement s (s.readX rs2).toNat i) 0) 255
    let w := bufferElement s (s.readX rs3).toNat
    let len := s.klen.toNat
    let sum := (Finset.range len).sum (fun i => us i * (us i * w i).bmod 65536) +
      (Finset.range len).sum (fun i => them i * (them i * w (len + i)).bmod 65536)
    let scaled := ((sum.bmod 4294967296).tdiv 255 + ((s.readX rs4).extractLsb' 0 16).toInt) * 400
    KernelReady len (s.readX rs1).toNat (s.readX rs2).toNat (s.readX rs3).toNat →
    ∃ t, exec (.kvalue rd rs1 rs2 rs3 rs4) s = .next t ∧
      ((t.readX rd).toInt = if rd = 0 then 0 else (scaled.bmod 4294967296).tdiv 16320) ∧
      (t.ovf = true ↔ s.ovf = true ∨ sum < -2147483648 ∨ sum > 2147483647 ∨
        scaled < -2147483648 ∨ scaled > 2147483647) ∧
      t.pc = s.pc + 4#32 ∧ OnlyScalar rd s t

/-- R181, R327: a kernel instruction whose checks fail takes the first failure in the order KLEN, us, them, weights,
alignment before range within a buffer, with FADDR the KLEN value or the base. -/
def Obligations.KernelChecksInOrder : Prop :=
  ∀ (i : Instr) (rd rs1 rs2 rs3 rs4 : XReg) (s : State),
    i = .kpolicy rd rs1 rs2 rs3 ∨ i = .kvalue rd rs1 rs2 rs3 rs4 →
    let len := s.klen.toNat
    let bu := s.readX rs1
    let bt := s.readX rs2
    let bw := s.readX rs3
    let takes (c : Cause) (info : Word) := ∃ t, exec i s = .next t ∧ Faulted c info (encode i) s t
    if len = 0 ∨ len % 16 ≠ 0 then takes .klenInvalid s.klen
    else if bu.toNat % 32 ≠ 0 then takes .loadMisaligned bu
    else if bu.toNat + 2 * len > 65536 then takes .loadAccess bu
    else if bt.toNat % 32 ≠ 0 then takes .loadMisaligned bt
    else if bt.toNat + 2 * len > 65536 then takes .loadAccess bt
    else if bw.toNat % 32 ≠ 0 then takes .loadMisaligned bw
    else if bw.toNat + 4 * len > 65536 then takes .loadAccess bw
    else ∃ t, exec i s = .next t ∧ t.pc = s.pc + 4#32 ∧ t.fault = s.fault

/-- R183: KPOLICY's value is that of the source's chunked algorithm: over the chunks, VMULLO16 of a side with its
weights, VMADD16 with the other side, VADD32 into one accumulator, and VHSUM32 at the end; x0 discards it. -/
def Obligations.KpolicyEqualsItsChunkedForm : Prop :=
  ∀ (rd rs1 rs2 rs3 : XReg) (s : State),
    KernelReady s.klen.toNat (s.readX rs1).toNat (s.readX rs2).toNat (s.readX rs3).toNat →
    ∃ t, exec (.kpolicy rd rs1 rs2 rs3) s = .next t ∧
      t.readX rd = if rd = 0 then 0#32 else hsum (s.policyChunks s.klen.toNat (s.readX rs1).toNat (s.readX rs2).toNat
        (s.readX rs3).toNat (s.klen.toNat / 16))

/-- R205: KVALUE's value is that of the source's chunked algorithm: over the chunks, VMAX16 with zero, VMIN16 with QA,
VMULLO16 with the weights, VMADD16 with the clipped side itself, VADD32 into one accumulator, then VHSUM32 and
VALSCALE; x0 discards it. -/
def Obligations.KvalueEqualsItsChunkedForm : Prop :=
  ∀ (rd rs1 rs2 rs3 rs4 : XReg) (s : State),
    KernelReady s.klen.toNat (s.readX rs1).toNat (s.readX rs2).toNat (s.readX rs3).toNat →
    ∃ t, exec (.kvalue rd rs1 rs2 rs3 rs4) s = .next t ∧
      t.readX rd = if rd = 0 then 0#32 else scaleResult (hsum (s.valueChunks s.klen.toNat (s.readX rs1).toNat
        (s.readX rs2).toNat (s.readX rs3).toNat (s.klen.toNat / 16))) ((s.readX rs4).extractLsb' 0 16)

/-- R186 (a), R207 (a): all-zero us and them give 0 for KPOLICY and `tdiv(bias * 400, 16320)` for KVALUE, whatever the
weights, with OVF unchanged. -/
def Obligations.ZeroAccumulatorsGiveTheBiasAlone : Prop :=
  ∀ (rd rs1 rs2 rs3 rs4 : XReg) (s : State), rd ≠ 0 →
    KernelReady s.klen.toNat (s.readX rs1).toNat (s.readX rs2).toNat (s.readX rs3).toNat →
    (∀ i, i < s.klen.toNat → bufferElement s (s.readX rs1).toNat i = 0 ∧ bufferElement s (s.readX rs2).toNat i = 0) →
    (∃ t, exec (.kpolicy rd rs1 rs2 rs3) s = .next t ∧ t.readX rd = 0#32 ∧ t.ovf = s.ovf) ∧
    (∃ t, exec (.kvalue rd rs1 rs2 rs3 rs4) s = .next t ∧
      (t.readX rd).toInt = (((s.readX rs4).extractLsb' 0 16).toInt * 400).tdiv 16320 ∧ t.ovf = s.ovf)

/-- R186 (b): KPOLICY's value and OVF depend only on L and the elements of its three buffers, wherever they lie and
whatever the rest of the two states is. -/
def Obligations.KpolicyDependsOnlyOnItsBuffers : Prop :=
  ∀ (rd rs1 rs2 rs3 rd' rs1' rs2' rs3' : XReg) (s s' : State), rd ≠ 0 → rd' ≠ 0 → s'.klen = s.klen → s'.ovf = s.ovf →
    KernelReady s.klen.toNat (s.readX rs1).toNat (s.readX rs2).toNat (s.readX rs3).toNat →
    KernelReady s'.klen.toNat (s'.readX rs1').toNat (s'.readX rs2').toNat (s'.readX rs3').toNat →
    (∀ i, i < s.klen.toNat →
      bufferElement s' (s'.readX rs1').toNat i = bufferElement s (s.readX rs1).toNat i ∧
      bufferElement s' (s'.readX rs2').toNat i = bufferElement s (s.readX rs2).toNat i) →
    (∀ i, i < 2 * s.klen.toNat →
      bufferElement s' (s'.readX rs3').toNat i = bufferElement s (s.readX rs3).toNat i) →
    ∃ t t', exec (.kpolicy rd rs1 rs2 rs3) s = .next t ∧ exec (.kpolicy rd' rs1' rs2' rs3') s' = .next t' ∧
      t'.readX rd' = t.readX rd ∧ t'.ovf = t.ovf

/-- R203, R207 (b), (c): KVALUE's value and OVF depend only on L, the low half of its bias, its weights, and its us and
them elements after clipping: an element above QA acts as QA and one below 0 as 0. -/
def Obligations.KvalueDependsOnlyOnClippedElements : Prop :=
  ∀ (rd rs1 rs2 rs3 rs4 rd' rs1' rs2' rs3' rs4' : XReg) (s s' : State), rd ≠ 0 → rd' ≠ 0 → s'.klen = s.klen →
    s'.ovf = s.ovf → (s'.readX rs4').extractLsb' 0 16 = (s.readX rs4).extractLsb' 0 16 →
    KernelReady s.klen.toNat (s.readX rs1).toNat (s.readX rs2).toNat (s.readX rs3).toNat →
    KernelReady s'.klen.toNat (s'.readX rs1').toNat (s'.readX rs2').toNat (s'.readX rs3').toNat →
    (∀ i, i < s.klen.toNat →
      min (max (bufferElement s' (s'.readX rs1').toNat i) 0) 255 = min (max (bufferElement s (s.readX rs1).toNat i) 0) 255 ∧
      min (max (bufferElement s' (s'.readX rs2').toNat i) 0) 255 = min (max (bufferElement s (s.readX rs2).toNat i) 0) 255) →
    (∀ i, i < 2 * s.klen.toNat →
      bufferElement s' (s'.readX rs3').toNat i = bufferElement s (s.readX rs3).toNat i) →
    ∃ t t', exec (.kvalue rd rs1 rs2 rs3 rs4) s = .next t ∧ exec (.kvalue rd' rs1' rs2' rs3' rs4') s' = .next t' ∧
      t'.readX rd' = t.readX rd ∧ t'.ovf = t.ovf

/-! ## Reset and the host port (R50, R350 to R357, R370) -/

/-- R356, R370: power-on reset, and HOST_RESET at any time, running or not, leave the engine idle at pc 0 with STATUS,
the fault record and OVF 0, KLEN 512 and x0 reading 0; HOST_RESET is OK. -/
def Obligations.ResetLeavesTheRuledState : Prop :=
  let ruled (t : State) := t.pc = 0#32 ∧ t.run = false ∧ t.halted = false ∧ t.fault = false ∧ t.ovf = false ∧
    t.cause = .none ∧ t.fpc = 0#32 ∧ t.faddr = 0#32 ∧ t.finst = 0#32 ∧ t.klen = 512#32 ∧ t.readX 0 = 0#32
  ruled State.reset ∧
    ∀ (s : State) (rest : List Turn), s.sched = .host .reset :: rest →
      ∃ t, step s = .next t ∧ ruled t ∧ t.replies = .ok :: s.replies ∧ t.sched = rest

/-- R350, R357: while RUN = 1 every transaction but a STATUS read, STOP and RESET is answered ERR and changes
nothing, and a STATUS read is answered with the true bits and changes nothing. -/
def Obligations.HostIsTurnedAwayWhileRunning : Prop :=
  ∀ (s : State) (x : HostTx) (rest : List Turn), s.sched = .host x :: rest → s.run = true →
    (x ≠ .stop → x ≠ .reset → x ≠ .rdCsr 0x000 →
      step s = .next { s with sched := rest, replies := .err :: s.replies }) ∧
    (x = .rdCsr 0x000 → step s = .next { s with sched := rest, replies := .okWord (BitVec.ofNat 32
      (1 + 2 * s.halted.toNat + 4 * s.fault.toNat + 8 * s.ovf.toNat)) :: s.replies })

/-- R354: START of a stopped engine sets pc and RUN, clears HALTED, FAULT, OVF and the fault record, and changes
nothing else; pc0 is not checked. START of a running engine is ERR and changes nothing. -/
def Obligations.StartBeginsARun : Prop :=
  ∀ (s : State) (pc0 : Word) (rest : List Turn), s.sched = .host (.start pc0) :: rest →
    (s.run = true → step s = .next { s with sched := rest, replies := .err :: s.replies }) ∧
    (s.run = false → ∃ t, step s = .next t ∧ t.pc = pc0 ∧ t.run = true ∧ t.halted = false ∧ t.fault = false ∧
      t.ovf = false ∧ t.cause = .none ∧ t.fpc = 0#32 ∧ t.faddr = 0#32 ∧ t.finst = 0#32 ∧ t.klen = s.klen ∧
      SameScalars s t ∧ SameVectors s t ∧ SameDmem s t ∧ (∀ a, t.imemByte a = s.imemByte a) ∧
      t.replies = .ok :: s.replies ∧ t.sched = rest)

/-- R355: STOP is always OK; it clears RUN and changes nothing else. -/
def Obligations.StopClearsRunOnly : Prop :=
  ∀ (s : State) (rest : List Turn), s.sched = .host .stop :: rest →
    step s = .next { s with sched := rest, run := false, replies := .ok :: s.replies }

/-- R351: HOST_WR_DMEM and HOST_RD_DMEM write and read one byte of data memory; they are OK when RUN = 0 and the address
is below 65536, and otherwise ERR with nothing changed. -/
def Obligations.HostReadsAndWritesDmemBytes : Prop :=
  ∀ (s : State) (a : Nat) (b : Byte) (rest : List Turn),
    (s.sched = .host (.wrDmem a b) :: rest → ∃ t, step s = .next t ∧
      t.replies = (if s.run = false ∧ a < 65536 then .ok else .err) :: s.replies ∧
      (∀ c, t.dmemByte c = if c = a ∧ s.run = false ∧ a < 65536 then b else s.dmemByte c) ∧
      SameScalars s t ∧ SameVectors s t ∧ t.pc = s.pc ∧ t.ovf = s.ovf ∧
      SameRest { s with sched := rest, replies := t.replies } t) ∧
    (s.sched = .host (.rdDmem a) :: rest →
      step s = .next { s with sched := rest, replies :=
        (if s.run = false ∧ a < 65536 then .okByte (s.dmemByte a) else .err) :: s.replies })

/-- R352: HOST_WR_IMEM and HOST_RD_IMEM write and read one little-endian word of instruction memory; they are OK when
RUN = 0 and the address is a multiple of 4 with its word inside, and otherwise ERR with nothing changed. -/
def Obligations.HostReadsAndWritesImemWords : Prop :=
  ∀ (s : State) (a : Nat) (w : Word) (rest : List Turn),
    let served := s.run = false ∧ a % 4 = 0 ∧ a + 4 ≤ 4096
    (s.sched = .host (.wrImem a w) :: rest → ∃ t, step s = .next t ∧
      (served → t.replies = .ok :: s.replies ∧
        ∀ c, t.imemByte c = if a ≤ c ∧ c < a + 4 then w.extractLsb' (8 * (c - a)) 8 else s.imemByte c) ∧
      (¬ served → t.replies = .err :: s.replies ∧ ∀ c, t.imemByte c = s.imemByte c) ∧
      SameScalars s t ∧ SameVectors s t ∧ SameDmem s t ∧ t.pc = s.pc ∧ t.ovf = s.ovf ∧ t.run = s.run ∧
      t.halted = s.halted ∧ t.fault = s.fault ∧ t.cause = s.cause ∧ t.fpc = s.fpc ∧ t.faddr = s.faddr ∧
      t.finst = s.finst ∧ t.klen = s.klen ∧ t.sched = rest) ∧
    (s.sched = .host (.rdImem a) :: rest →
      (served → step s = .next { s with sched := rest, replies := .okWord (s.imemByte (a + 3) ++ s.imemByte (a + 2) ++
        s.imemByte (a + 1) ++ s.imemByte a : BitVec 32) :: s.replies }) ∧
      (¬ served → step s = .next { s with sched := rest, replies := .err :: s.replies }))

/-- R353: HOST_RD_X, HOST_WR_X, HOST_RD_V and HOST_WR_V are OK when RUN = 0 and the number is below 16, and otherwise ERR
with nothing changed; a write of x0 is OK and has no effect. -/
def Obligations.HostReadsAndWritesRegisters : Prop :=
  ∀ (s : State) (n : Nat) (w : Word) (u : VWord) (rest : List Turn),
    let served := s.run = false ∧ n < 16
    (s.sched = .host (.wrX n w) :: rest → ∃ t, step s = .next t ∧
      (served → t.replies = .ok :: s.replies ∧
        ∀ r : XReg, t.readX r = if r.val = n ∧ r ≠ 0 then w else s.readX r) ∧
      (¬ served → t.replies = .err :: s.replies ∧ SameScalars s t) ∧
      SameVectors s t ∧ SameDmem s t ∧ t.pc = s.pc ∧ t.ovf = s.ovf ∧
      SameRest { s with sched := rest, replies := t.replies } t) ∧
    (s.sched = .host (.wrV n u) :: rest → ∃ t, step s = .next t ∧
      (served → t.replies = .ok :: s.replies ∧ ∀ r : VReg, t.readV r = if r.val = n then u else s.readV r) ∧
      (¬ served → t.replies = .err :: s.replies ∧ SameVectors s t) ∧
      SameScalars s t ∧ SameDmem s t ∧ t.pc = s.pc ∧ t.ovf = s.ovf ∧
      SameRest { s with sched := rest, replies := t.replies } t) ∧
    (s.sched = .host (.rdX n) :: rest →
      (∀ r : XReg, served → r.val = n →
        step s = .next { s with sched := rest, replies := .okWord (s.readX r) :: s.replies }) ∧
      (¬ served → step s = .next { s with sched := rest, replies := .err :: s.replies })) ∧
    (s.sched = .host (.rdV n) :: rest →
      (∀ r : VReg, served → r.val = n →
        step s = .next { s with sched := rest, replies := .okVector (s.readV r) :: s.replies }) ∧
      (¬ served → step s = .next { s with sched := rest, replies := .err :: s.replies }))

/-- R353: while RUN = 0, HOST_WR_CSR is OK only for STATUS, whose bit 3 goes to OVF, and for KLEN, any value, and
HOST_RD_CSR gives each of the 13 registers, STATUS with its true bits and CAUSE by the codes of R325; every other access
is ERR and changes nothing. -/
def Obligations.HostReadsAndWritesCsrs : Prop :=
  ∀ (s : State) (n : Nat) (w : Word) (rest : List Turn), s.run = false →
    (s.sched = .host (.wrCsr n w) :: rest →
      step s = .next (if n = 0x000 then { s with sched := rest, ovf := w.getLsbD 3, replies := .ok :: s.replies }
        else if n = 0x010 then { s with sched := rest, klen := w, replies := .ok :: s.replies }
        else { s with sched := rest, replies := .err :: s.replies })) ∧
    (s.sched = .host (.rdCsr n) :: rest →
      (∀ value : Word, (n, value) ∈
          [(0x000, BitVec.ofNat 32 (2 * s.halted.toNat + 4 * s.fault.toNat + 8 * s.ovf.toNat)),
            (0x001, specCauseCode s.cause), (0x002, s.fpc), (0x003, s.faddr), (0x004, s.finst), (0x010, s.klen),
            (0x020, 255#32), (0x021, 64#32), (0x022, 400#32), (0x023, 32#32), (0x030, 0x414F4D01#32),
            (0x031, 65536#32), (0x032, 4096#32)] →
        step s = .next { s with sched := rest, replies := .okWord value :: s.replies }) ∧
      (n ∉ [0x000, 0x001, 0x002, 0x003, 0x004, 0x010, 0x020, 0x021, 0x022, 0x023, 0x030, 0x031, 0x032] →
        step s = .next { s with sched := rest, replies := .err :: s.replies }))
end

