-- ==== Sys2Proof/Laws/Bits.lean ====
section
/-! SUPPORT. The parts of packed values: a value packed from parts has those parts (R15, R35, R72). -/

namespace Sys2Proof.Machine

/-- Bit `b` of a packed value is bit `b % w` of part `b / w`. -/
theorem getLsbD_pack (W w : Nat) (hw : 0 < w) (f : Nat → BitVec w) (n b : Nat) :
    (pack W w f n).getLsbD b = (decide (b < W) && decide (b < w * n) && (f (b / w)).getLsbD (b % w)) := by
  induction n with
  | zero => simp [pack]
  | succ n ih =>
    simp only [pack, BitVec.getLsbD_or, ih, BitVec.getLsbD_shiftLeft, BitVec.getLsbD_setWidth]
    by_cases hW : b < W <;> simp [hW]
    by_cases h1 : b < w * n
    · have : b < w * (n + 1) := by rw [Nat.mul_succ]; omega
      simp [h1, this]
    · simp only [h1, decide_false, Bool.false_and, Bool.false_or, Bool.not_false, Bool.true_and]
      by_cases h2 : b < w * (n + 1)
      · have hq : b / w = n := by
          apply Nat.div_eq_of_lt_le <;> rw [Nat.mul_comm] <;> omega
        have hm : b % w = b - w * n := by
          have := Nat.div_add_mod b w
          rw [hq] at this
          omega
        have : b - w * n < W := by omega
        simp [h2, hq, hm, this]
      · have : w ≤ b - w * n := by rw [Nat.mul_succ] at h2; omega
        simp [h2, BitVec.getLsbD_of_ge _ _ this]

/-- Part `k` of a packed value is `f k`. -/
theorem extract_pack (W w : Nat) (hw : 0 < w) (f : Nat → BitVec w) (n k : Nat) (hk : k < n) (hW : w * n ≤ W) :
    (pack W w f n).extractLsb' (w * k) w = f k := by
  apply BitVec.eq_of_getLsbD_eq
  intro i hi
  have hlt : w * k + i < w * n := by
    have : w * (k + 1) ≤ w * n := Nat.mul_le_mul_left _ hk
    rw [Nat.mul_succ] at this
    omega
  have hq : (w * k + i) / w = k := by rw [Nat.mul_add_div hw, Nat.div_eq_of_lt hi]; simp
  have hm : (w * k + i) % w = i := by rw [Nat.mul_add_mod, Nat.mod_eq_of_lt hi]
  have hlW : w * k + i < W := by omega
  rw [BitVec.getLsbD_extractLsb', getLsbD_pack _ _ hw]
  simp [hi, hq, hm, hlt, hlW]

/-- A value is the packing of its own parts. -/
theorem pack_extract (W w n : Nat) (hw : 0 < w) (hW : W = w * n) (u : BitVec W) :
    pack W w (fun k => u.extractLsb' (w * k) w) n = u := by
  apply BitVec.eq_of_getLsbD_eq
  intro i hi
  rw [getLsbD_pack _ _ hw]
  have hb : i % w < w := Nat.mod_lt _ hw
  have : w * (i / w) + i % w = i := Nat.div_add_mod i w
  have hn : i < w * n := by omega
  simp [hi, hn, hb, this]

/-- Packing depends only on the parts it packs. -/
theorem pack_congr (W w : Nat) (f g : Nat → BitVec w) (n : Nat) (h : ∀ k, k < n → f k = g k) :
    pack W w f n = pack W w g n := by
  induction n with
  | zero => rfl
  | succ n ih => simp only [pack, ih (fun k hk => h k (by omega)), h n (by omega)]

@[simp] theorem e16_ofE16 (f : Nat → Half) (k : Nat) (h : k < 16) : e16 (ofE16 f) k = f k :=
  extract_pack 256 16 (by omega) f 16 k h (by omega)

@[simp] theorem e32_ofE32 (f : Nat → Word) (j : Nat) (h : j < 8) : e32 (ofE32 f) j = f j :=
  extract_pack 256 32 (by omega) f 8 j h (by omega)

/-- Two vectors with the same elements are the same vector. -/
theorem eq_of_e16_eq (a b : VWord) (h : ∀ k, k < 16 → e16 a k = e16 b k) : a = b := by
  rw [← pack_extract 256 16 16 (by omega) (by omega) a, ← pack_extract 256 16 16 (by omega) (by omega) b]
  exact pack_congr 256 16 _ _ 16 h

/-- Two vectors with the same lanes are the same vector. -/
theorem eq_of_e32_eq (a b : VWord) (h : ∀ j, j < 8 → e32 a j = e32 b j) : a = b := by
  rw [← pack_extract 256 32 8 (by omega) (by omega) a, ← pack_extract 256 32 8 (by omega) (by omega) b]
  exact pack_congr 256 32 _ _ 8 h

/-- R35: lane `j` is element `2j + 1` above element `2j`. -/
theorem e32_eq_e16_append (u : VWord) (j : Nat) : e32 u j = (e16 u (2 * j + 1) ++ e16 u (2 * j) : BitVec 32) := by
  apply BitVec.eq_of_getLsbD_eq
  intro i hi
  simp only [e32, e16, BitVec.getLsbD_append, BitVec.getLsbD_extractLsb']
  by_cases h : i < 16
  · simp [h, hi]
    congr 1
    omega
  · simp [h, hi, show i - 16 < 16 by omega]
    congr 1
    omega

/-- The signed reading of a wrapped value is its balanced remainder mod 2^32 (R12). -/
@[simp] theorem toInt_wrap32 (z : Int) : (wrap32 z).toInt = z.bmod 4294967296 := by
  simp [wrap32, BitVec.toInt_ofInt]

/-- `lo16` is the balanced remainder mod 2^16 (R12). -/
theorem lo16_eq_bmod (z : Int) : lo16 z = z.bmod 65536 := by
  simp [lo16, lo16Bits, BitVec.toInt_ofInt]

/-- `fits32` says what R12 says. -/
theorem fits32_iff (z : Int) : fits32 z = true ↔ -2147483648 ≤ z ∧ z ≤ 2147483647 := by
  simp [fits32]

/-- `fits32` fails outside int32. -/
theorem not_fits32_iff (z : Int) : (!fits32 z) = true ↔ z < -2147483648 ∨ z > 2147483647 := by
  simp only [fits32, Bool.not_eq_true', Bool.and_eq_false_iff, decide_eq_false_iff_not]
  omega

/-- Some lane overflows exactly when one of the eight exact values does not fit. -/
theorem someLaneOverflows_iff (f : Nat → Int) :
    someLaneOverflows f = true ↔ ∃ j, j < 8 ∧ (f j < -2147483648 ∨ f j > 2147483647) := by
  simp only [someLaneOverflows, Config.ne32, List.any_eq_true, List.mem_range, not_fits32_iff]

/-- The parts of a wrapped vector of exact lanes. -/
@[simp] theorem e32_wrapLanes (f : Nat → Int) (j : Nat) (h : j < 8) : e32 (wrapLanes f) j = wrap32 (f j) :=
  e32_ofE32 _ j h

/-- A bounded sum is the library's sum over `Finset.range`. -/
theorem sumTo_eq_sum (f : Nat → Int) (n : Nat) : sumTo f n = (Finset.range n).sum f := by
  induction n with
  | zero => rfl
  | succ n ih => rw [sumTo, ih, Finset.sum_range_succ]

end Sys2Proof.Machine
end

