-- ==== Sys2Proof/Laws/State.lean ====
section
/-! SUPPORT. What each update of the state leaves in each field: one lemma per field per update, each true by rfl. -/

namespace Sys2Proof.Machine

/-! ### `writeX`: x[r] <- w (R31) -/

@[simp] theorem State.writeX_x (s : State) (r : XReg) (w : Word) : (s.writeX r w).x = (if r = 0 then s.x else s.x.set r.val w) := rfl
@[simp] theorem State.writeX_v (s : State) (r : XReg) (w : Word) : (s.writeX r w).v = s.v := rfl
@[simp] theorem State.writeX_pc (s : State) (r : XReg) (w : Word) : (s.writeX r w).pc = s.pc := rfl
@[simp] theorem State.writeX_run (s : State) (r : XReg) (w : Word) : (s.writeX r w).run = s.run := rfl
@[simp] theorem State.writeX_halted (s : State) (r : XReg) (w : Word) : (s.writeX r w).halted = s.halted := rfl
@[simp] theorem State.writeX_fault (s : State) (r : XReg) (w : Word) : (s.writeX r w).fault = s.fault := rfl
@[simp] theorem State.writeX_ovf (s : State) (r : XReg) (w : Word) : (s.writeX r w).ovf = s.ovf := rfl
@[simp] theorem State.writeX_cause (s : State) (r : XReg) (w : Word) : (s.writeX r w).cause = s.cause := rfl
@[simp] theorem State.writeX_fpc (s : State) (r : XReg) (w : Word) : (s.writeX r w).fpc = s.fpc := rfl
@[simp] theorem State.writeX_faddr (s : State) (r : XReg) (w : Word) : (s.writeX r w).faddr = s.faddr := rfl
@[simp] theorem State.writeX_finst (s : State) (r : XReg) (w : Word) : (s.writeX r w).finst = s.finst := rfl
@[simp] theorem State.writeX_klen (s : State) (r : XReg) (w : Word) : (s.writeX r w).klen = s.klen := rfl
@[simp] theorem State.writeX_imem (s : State) (r : XReg) (w : Word) : (s.writeX r w).imem = s.imem := rfl
@[simp] theorem State.writeX_dmem (s : State) (r : XReg) (w : Word) : (s.writeX r w).dmem = s.dmem := rfl
@[simp] theorem State.writeX_epoch (s : State) (r : XReg) (w : Word) : (s.writeX r w).epoch = s.epoch := rfl
@[simp] theorem State.writeX_sched (s : State) (r : XReg) (w : Word) : (s.writeX r w).sched = s.sched := rfl
@[simp] theorem State.writeX_replies (s : State) (r : XReg) (w : Word) : (s.writeX r w).replies = s.replies := rfl

/-! ### `writeV`: v[r] <- u (R34) -/

@[simp] theorem State.writeV_x (s : State) (r : VReg) (u : VWord) : (s.writeV r u).x = s.x := rfl
@[simp] theorem State.writeV_v (s : State) (r : VReg) (u : VWord) : (s.writeV r u).v = s.v.set r.val u := rfl
@[simp] theorem State.writeV_pc (s : State) (r : VReg) (u : VWord) : (s.writeV r u).pc = s.pc := rfl
@[simp] theorem State.writeV_run (s : State) (r : VReg) (u : VWord) : (s.writeV r u).run = s.run := rfl
@[simp] theorem State.writeV_halted (s : State) (r : VReg) (u : VWord) : (s.writeV r u).halted = s.halted := rfl
@[simp] theorem State.writeV_fault (s : State) (r : VReg) (u : VWord) : (s.writeV r u).fault = s.fault := rfl
@[simp] theorem State.writeV_ovf (s : State) (r : VReg) (u : VWord) : (s.writeV r u).ovf = s.ovf := rfl
@[simp] theorem State.writeV_cause (s : State) (r : VReg) (u : VWord) : (s.writeV r u).cause = s.cause := rfl
@[simp] theorem State.writeV_fpc (s : State) (r : VReg) (u : VWord) : (s.writeV r u).fpc = s.fpc := rfl
@[simp] theorem State.writeV_faddr (s : State) (r : VReg) (u : VWord) : (s.writeV r u).faddr = s.faddr := rfl
@[simp] theorem State.writeV_finst (s : State) (r : VReg) (u : VWord) : (s.writeV r u).finst = s.finst := rfl
@[simp] theorem State.writeV_klen (s : State) (r : VReg) (u : VWord) : (s.writeV r u).klen = s.klen := rfl
@[simp] theorem State.writeV_imem (s : State) (r : VReg) (u : VWord) : (s.writeV r u).imem = s.imem := rfl
@[simp] theorem State.writeV_dmem (s : State) (r : VReg) (u : VWord) : (s.writeV r u).dmem = s.dmem := rfl
@[simp] theorem State.writeV_epoch (s : State) (r : VReg) (u : VWord) : (s.writeV r u).epoch = s.epoch := rfl
@[simp] theorem State.writeV_sched (s : State) (r : VReg) (u : VWord) : (s.writeV r u).sched = s.sched := rfl
@[simp] theorem State.writeV_replies (s : State) (r : VReg) (u : VWord) : (s.writeV r u).replies = s.replies := rfl

/-! ### `setPc`: pc <- a (R37) -/

@[simp] theorem State.setPc_x (s : State) (a : Word) : (s.setPc a).x = s.x := rfl
@[simp] theorem State.setPc_v (s : State) (a : Word) : (s.setPc a).v = s.v := rfl
@[simp] theorem State.setPc_pc (s : State) (a : Word) : (s.setPc a).pc = a := rfl
@[simp] theorem State.setPc_run (s : State) (a : Word) : (s.setPc a).run = s.run := rfl
@[simp] theorem State.setPc_halted (s : State) (a : Word) : (s.setPc a).halted = s.halted := rfl
@[simp] theorem State.setPc_fault (s : State) (a : Word) : (s.setPc a).fault = s.fault := rfl
@[simp] theorem State.setPc_ovf (s : State) (a : Word) : (s.setPc a).ovf = s.ovf := rfl
@[simp] theorem State.setPc_cause (s : State) (a : Word) : (s.setPc a).cause = s.cause := rfl
@[simp] theorem State.setPc_fpc (s : State) (a : Word) : (s.setPc a).fpc = s.fpc := rfl
@[simp] theorem State.setPc_faddr (s : State) (a : Word) : (s.setPc a).faddr = s.faddr := rfl
@[simp] theorem State.setPc_finst (s : State) (a : Word) : (s.setPc a).finst = s.finst := rfl
@[simp] theorem State.setPc_klen (s : State) (a : Word) : (s.setPc a).klen = s.klen := rfl
@[simp] theorem State.setPc_imem (s : State) (a : Word) : (s.setPc a).imem = s.imem := rfl
@[simp] theorem State.setPc_dmem (s : State) (a : Word) : (s.setPc a).dmem = s.dmem := rfl
@[simp] theorem State.setPc_epoch (s : State) (a : Word) : (s.setPc a).epoch = s.epoch := rfl
@[simp] theorem State.setPc_sched (s : State) (a : Word) : (s.setPc a).sched = s.sched := rfl
@[simp] theorem State.setPc_replies (s : State) (a : Word) : (s.setPc a).replies = s.replies := rfl

/-! ### `advance`: pc <- pc + 4 (R37) -/

@[simp] theorem State.advance_x (s : State) : (s.advance).x = s.x := rfl
@[simp] theorem State.advance_v (s : State) : (s.advance).v = s.v := rfl
@[simp] theorem State.advance_pc (s : State) : (s.advance).pc = s.pc + 4#32 := rfl
@[simp] theorem State.advance_run (s : State) : (s.advance).run = s.run := rfl
@[simp] theorem State.advance_halted (s : State) : (s.advance).halted = s.halted := rfl
@[simp] theorem State.advance_fault (s : State) : (s.advance).fault = s.fault := rfl
@[simp] theorem State.advance_ovf (s : State) : (s.advance).ovf = s.ovf := rfl
@[simp] theorem State.advance_cause (s : State) : (s.advance).cause = s.cause := rfl
@[simp] theorem State.advance_fpc (s : State) : (s.advance).fpc = s.fpc := rfl
@[simp] theorem State.advance_faddr (s : State) : (s.advance).faddr = s.faddr := rfl
@[simp] theorem State.advance_finst (s : State) : (s.advance).finst = s.finst := rfl
@[simp] theorem State.advance_klen (s : State) : (s.advance).klen = s.klen := rfl
@[simp] theorem State.advance_imem (s : State) : (s.advance).imem = s.imem := rfl
@[simp] theorem State.advance_dmem (s : State) : (s.advance).dmem = s.dmem := rfl
@[simp] theorem State.advance_epoch (s : State) : (s.advance).epoch = s.epoch := rfl
@[simp] theorem State.advance_sched (s : State) : (s.advance).sched = s.sched := rfl
@[simp] theorem State.advance_replies (s : State) : (s.advance).replies = s.replies := rfl

/-! ### `setKlen`: csr[KLEN] <- w (R43) -/

@[simp] theorem State.setKlen_x (s : State) (w : Word) : (s.setKlen w).x = s.x := rfl
@[simp] theorem State.setKlen_v (s : State) (w : Word) : (s.setKlen w).v = s.v := rfl
@[simp] theorem State.setKlen_pc (s : State) (w : Word) : (s.setKlen w).pc = s.pc := rfl
@[simp] theorem State.setKlen_run (s : State) (w : Word) : (s.setKlen w).run = s.run := rfl
@[simp] theorem State.setKlen_halted (s : State) (w : Word) : (s.setKlen w).halted = s.halted := rfl
@[simp] theorem State.setKlen_fault (s : State) (w : Word) : (s.setKlen w).fault = s.fault := rfl
@[simp] theorem State.setKlen_ovf (s : State) (w : Word) : (s.setKlen w).ovf = s.ovf := rfl
@[simp] theorem State.setKlen_cause (s : State) (w : Word) : (s.setKlen w).cause = s.cause := rfl
@[simp] theorem State.setKlen_fpc (s : State) (w : Word) : (s.setKlen w).fpc = s.fpc := rfl
@[simp] theorem State.setKlen_faddr (s : State) (w : Word) : (s.setKlen w).faddr = s.faddr := rfl
@[simp] theorem State.setKlen_finst (s : State) (w : Word) : (s.setKlen w).finst = s.finst := rfl
@[simp] theorem State.setKlen_klen (s : State) (w : Word) : (s.setKlen w).klen = w := rfl
@[simp] theorem State.setKlen_imem (s : State) (w : Word) : (s.setKlen w).imem = s.imem := rfl
@[simp] theorem State.setKlen_dmem (s : State) (w : Word) : (s.setKlen w).dmem = s.dmem := rfl
@[simp] theorem State.setKlen_epoch (s : State) (w : Word) : (s.setKlen w).epoch = s.epoch := rfl
@[simp] theorem State.setKlen_sched (s : State) (w : Word) : (s.setKlen w).sched = s.sched := rfl
@[simp] theorem State.setKlen_replies (s : State) (w : Word) : (s.setKlen w).replies = s.replies := rfl

/-! ### `flagOverflow`: the sticky OVF (R41) -/

@[simp] theorem State.flagOverflow_x (s : State) (b : Bool) : (s.flagOverflow b).x = s.x := rfl
@[simp] theorem State.flagOverflow_v (s : State) (b : Bool) : (s.flagOverflow b).v = s.v := rfl
@[simp] theorem State.flagOverflow_pc (s : State) (b : Bool) : (s.flagOverflow b).pc = s.pc := rfl
@[simp] theorem State.flagOverflow_run (s : State) (b : Bool) : (s.flagOverflow b).run = s.run := rfl
@[simp] theorem State.flagOverflow_halted (s : State) (b : Bool) : (s.flagOverflow b).halted = s.halted := rfl
@[simp] theorem State.flagOverflow_fault (s : State) (b : Bool) : (s.flagOverflow b).fault = s.fault := rfl
@[simp] theorem State.flagOverflow_ovf (s : State) (b : Bool) : (s.flagOverflow b).ovf = (s.ovf || b) := rfl
@[simp] theorem State.flagOverflow_cause (s : State) (b : Bool) : (s.flagOverflow b).cause = s.cause := rfl
@[simp] theorem State.flagOverflow_fpc (s : State) (b : Bool) : (s.flagOverflow b).fpc = s.fpc := rfl
@[simp] theorem State.flagOverflow_faddr (s : State) (b : Bool) : (s.flagOverflow b).faddr = s.faddr := rfl
@[simp] theorem State.flagOverflow_finst (s : State) (b : Bool) : (s.flagOverflow b).finst = s.finst := rfl
@[simp] theorem State.flagOverflow_klen (s : State) (b : Bool) : (s.flagOverflow b).klen = s.klen := rfl
@[simp] theorem State.flagOverflow_imem (s : State) (b : Bool) : (s.flagOverflow b).imem = s.imem := rfl
@[simp] theorem State.flagOverflow_dmem (s : State) (b : Bool) : (s.flagOverflow b).dmem = s.dmem := rfl
@[simp] theorem State.flagOverflow_epoch (s : State) (b : Bool) : (s.flagOverflow b).epoch = s.epoch := rfl
@[simp] theorem State.flagOverflow_sched (s : State) (b : Bool) : (s.flagOverflow b).sched = s.sched := rfl
@[simp] theorem State.flagOverflow_replies (s : State) (b : Bool) : (s.flagOverflow b).replies = s.replies := rfl

/-! ### `writeStatus`: a write of STATUS (R39) -/

@[simp] theorem State.writeStatus_x (s : State) (w : Word) : (s.writeStatus w).x = s.x := rfl
@[simp] theorem State.writeStatus_v (s : State) (w : Word) : (s.writeStatus w).v = s.v := rfl
@[simp] theorem State.writeStatus_pc (s : State) (w : Word) : (s.writeStatus w).pc = s.pc := rfl
@[simp] theorem State.writeStatus_run (s : State) (w : Word) : (s.writeStatus w).run = s.run := rfl
@[simp] theorem State.writeStatus_halted (s : State) (w : Word) : (s.writeStatus w).halted = s.halted := rfl
@[simp] theorem State.writeStatus_fault (s : State) (w : Word) : (s.writeStatus w).fault = s.fault := rfl
@[simp] theorem State.writeStatus_ovf (s : State) (w : Word) : (s.writeStatus w).ovf = w.getLsbD 3 := rfl
@[simp] theorem State.writeStatus_cause (s : State) (w : Word) : (s.writeStatus w).cause = s.cause := rfl
@[simp] theorem State.writeStatus_fpc (s : State) (w : Word) : (s.writeStatus w).fpc = s.fpc := rfl
@[simp] theorem State.writeStatus_faddr (s : State) (w : Word) : (s.writeStatus w).faddr = s.faddr := rfl
@[simp] theorem State.writeStatus_finst (s : State) (w : Word) : (s.writeStatus w).finst = s.finst := rfl
@[simp] theorem State.writeStatus_klen (s : State) (w : Word) : (s.writeStatus w).klen = s.klen := rfl
@[simp] theorem State.writeStatus_imem (s : State) (w : Word) : (s.writeStatus w).imem = s.imem := rfl
@[simp] theorem State.writeStatus_dmem (s : State) (w : Word) : (s.writeStatus w).dmem = s.dmem := rfl
@[simp] theorem State.writeStatus_epoch (s : State) (w : Word) : (s.writeStatus w).epoch = s.epoch := rfl
@[simp] theorem State.writeStatus_sched (s : State) (w : Word) : (s.writeStatus w).sched = s.sched := rfl
@[simp] theorem State.writeStatus_replies (s : State) (w : Word) : (s.writeStatus w).replies = s.replies := rfl

/-! ### `storeBytes`: a store (R72) -/

@[simp] theorem State.storeBytes_x (s : State) (a : Nat) (f : Nat → Byte) (n : Nat) : (s.storeBytes a f n).x = s.x := rfl
@[simp] theorem State.storeBytes_v (s : State) (a : Nat) (f : Nat → Byte) (n : Nat) : (s.storeBytes a f n).v = s.v := rfl
@[simp] theorem State.storeBytes_pc (s : State) (a : Nat) (f : Nat → Byte) (n : Nat) : (s.storeBytes a f n).pc = s.pc := rfl
@[simp] theorem State.storeBytes_run (s : State) (a : Nat) (f : Nat → Byte) (n : Nat) : (s.storeBytes a f n).run = s.run := rfl
@[simp] theorem State.storeBytes_halted (s : State) (a : Nat) (f : Nat → Byte) (n : Nat) : (s.storeBytes a f n).halted = s.halted := rfl
@[simp] theorem State.storeBytes_fault (s : State) (a : Nat) (f : Nat → Byte) (n : Nat) : (s.storeBytes a f n).fault = s.fault := rfl
@[simp] theorem State.storeBytes_ovf (s : State) (a : Nat) (f : Nat → Byte) (n : Nat) : (s.storeBytes a f n).ovf = s.ovf := rfl
@[simp] theorem State.storeBytes_cause (s : State) (a : Nat) (f : Nat → Byte) (n : Nat) : (s.storeBytes a f n).cause = s.cause := rfl
@[simp] theorem State.storeBytes_fpc (s : State) (a : Nat) (f : Nat → Byte) (n : Nat) : (s.storeBytes a f n).fpc = s.fpc := rfl
@[simp] theorem State.storeBytes_faddr (s : State) (a : Nat) (f : Nat → Byte) (n : Nat) : (s.storeBytes a f n).faddr = s.faddr := rfl
@[simp] theorem State.storeBytes_finst (s : State) (a : Nat) (f : Nat → Byte) (n : Nat) : (s.storeBytes a f n).finst = s.finst := rfl
@[simp] theorem State.storeBytes_klen (s : State) (a : Nat) (f : Nat → Byte) (n : Nat) : (s.storeBytes a f n).klen = s.klen := rfl
@[simp] theorem State.storeBytes_imem (s : State) (a : Nat) (f : Nat → Byte) (n : Nat) : (s.storeBytes a f n).imem = s.imem := rfl
@[simp] theorem State.storeBytes_dmem (s : State) (a : Nat) (f : Nat → Byte) (n : Nat) : (s.storeBytes a f n).dmem = s.dmem.writeBytes a f n := rfl
@[simp] theorem State.storeBytes_epoch (s : State) (a : Nat) (f : Nat → Byte) (n : Nat) : (s.storeBytes a f n).epoch = s.epoch := rfl
@[simp] theorem State.storeBytes_sched (s : State) (a : Nat) (f : Nat → Byte) (n : Nat) : (s.storeBytes a f n).sched = s.sched := rfl
@[simp] theorem State.storeBytes_replies (s : State) (a : Nat) (f : Nat → Byte) (n : Nat) : (s.storeBytes a f n).replies = s.replies := rfl

/-! ### `storeWord`: a word store (R72) -/

@[simp] theorem State.storeWord_x (s : State) (a : Nat) (w : Word) : (s.storeWord a w).x = s.x :=
  State.storeBytes_x _ _ _ _
@[simp] theorem State.storeWord_v (s : State) (a : Nat) (w : Word) : (s.storeWord a w).v = s.v :=
  State.storeBytes_v _ _ _ _
@[simp] theorem State.storeWord_pc (s : State) (a : Nat) (w : Word) : (s.storeWord a w).pc = s.pc :=
  State.storeBytes_pc _ _ _ _
@[simp] theorem State.storeWord_run (s : State) (a : Nat) (w : Word) : (s.storeWord a w).run = s.run :=
  State.storeBytes_run _ _ _ _
@[simp] theorem State.storeWord_halted (s : State) (a : Nat) (w : Word) : (s.storeWord a w).halted = s.halted :=
  State.storeBytes_halted _ _ _ _
@[simp] theorem State.storeWord_fault (s : State) (a : Nat) (w : Word) : (s.storeWord a w).fault = s.fault :=
  State.storeBytes_fault _ _ _ _
@[simp] theorem State.storeWord_ovf (s : State) (a : Nat) (w : Word) : (s.storeWord a w).ovf = s.ovf :=
  State.storeBytes_ovf _ _ _ _
@[simp] theorem State.storeWord_cause (s : State) (a : Nat) (w : Word) : (s.storeWord a w).cause = s.cause :=
  State.storeBytes_cause _ _ _ _
@[simp] theorem State.storeWord_fpc (s : State) (a : Nat) (w : Word) : (s.storeWord a w).fpc = s.fpc :=
  State.storeBytes_fpc _ _ _ _
@[simp] theorem State.storeWord_faddr (s : State) (a : Nat) (w : Word) : (s.storeWord a w).faddr = s.faddr :=
  State.storeBytes_faddr _ _ _ _
@[simp] theorem State.storeWord_finst (s : State) (a : Nat) (w : Word) : (s.storeWord a w).finst = s.finst :=
  State.storeBytes_finst _ _ _ _
@[simp] theorem State.storeWord_klen (s : State) (a : Nat) (w : Word) : (s.storeWord a w).klen = s.klen :=
  State.storeBytes_klen _ _ _ _
@[simp] theorem State.storeWord_imem (s : State) (a : Nat) (w : Word) : (s.storeWord a w).imem = s.imem :=
  State.storeBytes_imem _ _ _ _
@[simp] theorem State.storeWord_dmem (s : State) (a : Nat) (w : Word) :
    (s.storeWord a w).dmem = s.dmem.writeBytes a (byteOfWord w) 4 :=
  State.storeBytes_dmem _ _ _ _
@[simp] theorem State.storeWord_epoch (s : State) (a : Nat) (w : Word) : (s.storeWord a w).epoch = s.epoch :=
  State.storeBytes_epoch _ _ _ _
@[simp] theorem State.storeWord_sched (s : State) (a : Nat) (w : Word) : (s.storeWord a w).sched = s.sched :=
  State.storeBytes_sched _ _ _ _
@[simp] theorem State.storeWord_replies (s : State) (a : Nat) (w : Word) : (s.storeWord a w).replies = s.replies :=
  State.storeBytes_replies _ _ _ _

/-! ### `storeVector`: a vector store (R73) -/

@[simp] theorem State.storeVector_x (s : State) (a : Nat) (u : VWord) : (s.storeVector a u).x = s.x :=
  State.storeBytes_x _ _ _ _
@[simp] theorem State.storeVector_v (s : State) (a : Nat) (u : VWord) : (s.storeVector a u).v = s.v :=
  State.storeBytes_v _ _ _ _
@[simp] theorem State.storeVector_pc (s : State) (a : Nat) (u : VWord) : (s.storeVector a u).pc = s.pc :=
  State.storeBytes_pc _ _ _ _
@[simp] theorem State.storeVector_run (s : State) (a : Nat) (u : VWord) : (s.storeVector a u).run = s.run :=
  State.storeBytes_run _ _ _ _
@[simp] theorem State.storeVector_halted (s : State) (a : Nat) (u : VWord) : (s.storeVector a u).halted = s.halted :=
  State.storeBytes_halted _ _ _ _
@[simp] theorem State.storeVector_fault (s : State) (a : Nat) (u : VWord) : (s.storeVector a u).fault = s.fault :=
  State.storeBytes_fault _ _ _ _
@[simp] theorem State.storeVector_ovf (s : State) (a : Nat) (u : VWord) : (s.storeVector a u).ovf = s.ovf :=
  State.storeBytes_ovf _ _ _ _
@[simp] theorem State.storeVector_cause (s : State) (a : Nat) (u : VWord) : (s.storeVector a u).cause = s.cause :=
  State.storeBytes_cause _ _ _ _
@[simp] theorem State.storeVector_fpc (s : State) (a : Nat) (u : VWord) : (s.storeVector a u).fpc = s.fpc :=
  State.storeBytes_fpc _ _ _ _
@[simp] theorem State.storeVector_faddr (s : State) (a : Nat) (u : VWord) : (s.storeVector a u).faddr = s.faddr :=
  State.storeBytes_faddr _ _ _ _
@[simp] theorem State.storeVector_finst (s : State) (a : Nat) (u : VWord) : (s.storeVector a u).finst = s.finst :=
  State.storeBytes_finst _ _ _ _
@[simp] theorem State.storeVector_klen (s : State) (a : Nat) (u : VWord) : (s.storeVector a u).klen = s.klen :=
  State.storeBytes_klen _ _ _ _
@[simp] theorem State.storeVector_imem (s : State) (a : Nat) (u : VWord) : (s.storeVector a u).imem = s.imem :=
  State.storeBytes_imem _ _ _ _
@[simp] theorem State.storeVector_dmem (s : State) (a : Nat) (u : VWord) :
    (s.storeVector a u).dmem = s.dmem.writeBytes a (byteOfVector u) Config.vlenb :=
  State.storeBytes_dmem _ _ _ _
@[simp] theorem State.storeVector_epoch (s : State) (a : Nat) (u : VWord) : (s.storeVector a u).epoch = s.epoch :=
  State.storeBytes_epoch _ _ _ _
@[simp] theorem State.storeVector_sched (s : State) (a : Nat) (u : VWord) : (s.storeVector a u).sched = s.sched :=
  State.storeBytes_sched _ _ _ _
@[simp] theorem State.storeVector_replies (s : State) (a : Nat) (u : VWord) : (s.storeVector a u).replies = s.replies :=
  State.storeBytes_replies _ _ _ _

/-! ### `storeInstr`: a host write of IMEM (R352) -/

@[simp] theorem State.storeInstr_x (s : State) (a : Nat) (w : Word) : (s.storeInstr a w).x = s.x := rfl
@[simp] theorem State.storeInstr_v (s : State) (a : Nat) (w : Word) : (s.storeInstr a w).v = s.v := rfl
@[simp] theorem State.storeInstr_pc (s : State) (a : Nat) (w : Word) : (s.storeInstr a w).pc = s.pc := rfl
@[simp] theorem State.storeInstr_run (s : State) (a : Nat) (w : Word) : (s.storeInstr a w).run = s.run := rfl
@[simp] theorem State.storeInstr_halted (s : State) (a : Nat) (w : Word) : (s.storeInstr a w).halted = s.halted := rfl
@[simp] theorem State.storeInstr_fault (s : State) (a : Nat) (w : Word) : (s.storeInstr a w).fault = s.fault := rfl
@[simp] theorem State.storeInstr_ovf (s : State) (a : Nat) (w : Word) : (s.storeInstr a w).ovf = s.ovf := rfl
@[simp] theorem State.storeInstr_cause (s : State) (a : Nat) (w : Word) : (s.storeInstr a w).cause = s.cause := rfl
@[simp] theorem State.storeInstr_fpc (s : State) (a : Nat) (w : Word) : (s.storeInstr a w).fpc = s.fpc := rfl
@[simp] theorem State.storeInstr_faddr (s : State) (a : Nat) (w : Word) : (s.storeInstr a w).faddr = s.faddr := rfl
@[simp] theorem State.storeInstr_finst (s : State) (a : Nat) (w : Word) : (s.storeInstr a w).finst = s.finst := rfl
@[simp] theorem State.storeInstr_klen (s : State) (a : Nat) (w : Word) : (s.storeInstr a w).klen = s.klen := rfl
@[simp] theorem State.storeInstr_imem (s : State) (a : Nat) (w : Word) : (s.storeInstr a w).imem = s.imem.writeBytes a (byteOfWord w) 4 := rfl
@[simp] theorem State.storeInstr_dmem (s : State) (a : Nat) (w : Word) : (s.storeInstr a w).dmem = s.dmem := rfl
@[simp] theorem State.storeInstr_epoch (s : State) (a : Nat) (w : Word) : (s.storeInstr a w).epoch = s.epoch := rfl
@[simp] theorem State.storeInstr_sched (s : State) (a : Nat) (w : Word) : (s.storeInstr a w).sched = s.sched := rfl
@[simp] theorem State.storeInstr_replies (s : State) (a : Nat) (w : Word) : (s.storeInstr a w).replies = s.replies := rfl

/-! ### `raise`: fault entry (R330) -/

@[simp] theorem State.raise_x (s : State) (t : Trap) (w : Word) : (s.raise t w).x = s.x := rfl
@[simp] theorem State.raise_v (s : State) (t : Trap) (w : Word) : (s.raise t w).v = s.v := rfl
@[simp] theorem State.raise_pc (s : State) (t : Trap) (w : Word) : (s.raise t w).pc = s.pc := rfl
@[simp] theorem State.raise_run (s : State) (t : Trap) (w : Word) : (s.raise t w).run = false := rfl
@[simp] theorem State.raise_halted (s : State) (t : Trap) (w : Word) : (s.raise t w).halted = s.halted := rfl
@[simp] theorem State.raise_fault (s : State) (t : Trap) (w : Word) : (s.raise t w).fault = true := rfl
@[simp] theorem State.raise_ovf (s : State) (t : Trap) (w : Word) : (s.raise t w).ovf = s.ovf := rfl
@[simp] theorem State.raise_cause (s : State) (t : Trap) (w : Word) : (s.raise t w).cause = t.cause := rfl
@[simp] theorem State.raise_fpc (s : State) (t : Trap) (w : Word) : (s.raise t w).fpc = s.pc := rfl
@[simp] theorem State.raise_faddr (s : State) (t : Trap) (w : Word) : (s.raise t w).faddr = t.info := rfl
@[simp] theorem State.raise_finst (s : State) (t : Trap) (w : Word) : (s.raise t w).finst = (if t.cause = .fetchFault then 0#32 else w) := rfl
@[simp] theorem State.raise_klen (s : State) (t : Trap) (w : Word) : (s.raise t w).klen = s.klen := rfl
@[simp] theorem State.raise_imem (s : State) (t : Trap) (w : Word) : (s.raise t w).imem = s.imem := rfl
@[simp] theorem State.raise_dmem (s : State) (t : Trap) (w : Word) : (s.raise t w).dmem = s.dmem := rfl
@[simp] theorem State.raise_epoch (s : State) (t : Trap) (w : Word) : (s.raise t w).epoch = s.epoch := rfl
@[simp] theorem State.raise_sched (s : State) (t : Trap) (w : Word) : (s.raise t w).sched = s.sched := rfl
@[simp] theorem State.raise_replies (s : State) (t : Trap) (w : Word) : (s.raise t w).replies = s.replies := rfl

/-! ### `halt`: HALT (R300) -/

@[simp] theorem State.halt_x (s : State) : (s.halt).x = s.x := rfl
@[simp] theorem State.halt_v (s : State) : (s.halt).v = s.v := rfl
@[simp] theorem State.halt_pc (s : State) : (s.halt).pc = s.pc := rfl
@[simp] theorem State.halt_run (s : State) : (s.halt).run = false := rfl
@[simp] theorem State.halt_halted (s : State) : (s.halt).halted = true := rfl
@[simp] theorem State.halt_fault (s : State) : (s.halt).fault = s.fault := rfl
@[simp] theorem State.halt_ovf (s : State) : (s.halt).ovf = s.ovf := rfl
@[simp] theorem State.halt_cause (s : State) : (s.halt).cause = s.cause := rfl
@[simp] theorem State.halt_fpc (s : State) : (s.halt).fpc = s.fpc := rfl
@[simp] theorem State.halt_faddr (s : State) : (s.halt).faddr = s.faddr := rfl
@[simp] theorem State.halt_finst (s : State) : (s.halt).finst = s.finst := rfl
@[simp] theorem State.halt_klen (s : State) : (s.halt).klen = s.klen := rfl
@[simp] theorem State.halt_imem (s : State) : (s.halt).imem = s.imem := rfl
@[simp] theorem State.halt_dmem (s : State) : (s.halt).dmem = s.dmem := rfl
@[simp] theorem State.halt_epoch (s : State) : (s.halt).epoch = s.epoch := rfl
@[simp] theorem State.halt_sched (s : State) : (s.halt).sched = s.sched := rfl
@[simp] theorem State.halt_replies (s : State) : (s.halt).replies = s.replies := rfl

/-! ### `start`: HOST_START (R354) -/

@[simp] theorem State.start_x (s : State) (p : Word) : (s.start p).x = s.x := rfl
@[simp] theorem State.start_v (s : State) (p : Word) : (s.start p).v = s.v := rfl
@[simp] theorem State.start_pc (s : State) (p : Word) : (s.start p).pc = p := rfl
@[simp] theorem State.start_run (s : State) (p : Word) : (s.start p).run = true := rfl
@[simp] theorem State.start_halted (s : State) (p : Word) : (s.start p).halted = false := rfl
@[simp] theorem State.start_fault (s : State) (p : Word) : (s.start p).fault = false := rfl
@[simp] theorem State.start_ovf (s : State) (p : Word) : (s.start p).ovf = false := rfl
@[simp] theorem State.start_cause (s : State) (p : Word) : (s.start p).cause = .none := rfl
@[simp] theorem State.start_fpc (s : State) (p : Word) : (s.start p).fpc = 0#32 := rfl
@[simp] theorem State.start_faddr (s : State) (p : Word) : (s.start p).faddr = 0#32 := rfl
@[simp] theorem State.start_finst (s : State) (p : Word) : (s.start p).finst = 0#32 := rfl
@[simp] theorem State.start_klen (s : State) (p : Word) : (s.start p).klen = s.klen := rfl
@[simp] theorem State.start_imem (s : State) (p : Word) : (s.start p).imem = s.imem := rfl
@[simp] theorem State.start_dmem (s : State) (p : Word) : (s.start p).dmem = s.dmem := rfl
@[simp] theorem State.start_epoch (s : State) (p : Word) : (s.start p).epoch = s.epoch := rfl
@[simp] theorem State.start_sched (s : State) (p : Word) : (s.start p).sched = s.sched := rfl
@[simp] theorem State.start_replies (s : State) (p : Word) : (s.start p).replies = s.replies := rfl

/-! ### `stop`: HOST_STOP (R355) -/

@[simp] theorem State.stop_x (s : State) : (s.stop).x = s.x := rfl
@[simp] theorem State.stop_v (s : State) : (s.stop).v = s.v := rfl
@[simp] theorem State.stop_pc (s : State) : (s.stop).pc = s.pc := rfl
@[simp] theorem State.stop_run (s : State) : (s.stop).run = false := rfl
@[simp] theorem State.stop_halted (s : State) : (s.stop).halted = s.halted := rfl
@[simp] theorem State.stop_fault (s : State) : (s.stop).fault = s.fault := rfl
@[simp] theorem State.stop_ovf (s : State) : (s.stop).ovf = s.ovf := rfl
@[simp] theorem State.stop_cause (s : State) : (s.stop).cause = s.cause := rfl
@[simp] theorem State.stop_fpc (s : State) : (s.stop).fpc = s.fpc := rfl
@[simp] theorem State.stop_faddr (s : State) : (s.stop).faddr = s.faddr := rfl
@[simp] theorem State.stop_finst (s : State) : (s.stop).finst = s.finst := rfl
@[simp] theorem State.stop_klen (s : State) : (s.stop).klen = s.klen := rfl
@[simp] theorem State.stop_imem (s : State) : (s.stop).imem = s.imem := rfl
@[simp] theorem State.stop_dmem (s : State) : (s.stop).dmem = s.dmem := rfl
@[simp] theorem State.stop_epoch (s : State) : (s.stop).epoch = s.epoch := rfl
@[simp] theorem State.stop_sched (s : State) : (s.stop).sched = s.sched := rfl
@[simp] theorem State.stop_replies (s : State) : (s.stop).replies = s.replies := rfl

end Sys2Proof.Machine
end

