-- ==== Sys2Proof/Laws/Memory.lean ====
section
/-! SUPPORT. Memory: reads after writes, and the canonical form that every memory operation keeps. -/

namespace Sys2Proof.Machine

/-- An address reads what was last written to it, and a write leaves every other address alone. -/
theorem lookup_write (m : Memory) (a c : Nat) (b : Byte) :
    (m.write a b).lookup c = if c = a then some b else m.lookup c := by
  induction m with
  | nil => simp [Memory.write, Memory.lookup, eq_comm]
  | cons p m ih =>
    obtain ⟨k, d⟩ := p
    simp only [Memory.write]
    by_cases h1 : a < k
    · simp only [h1, if_true, Memory.lookup]
      by_cases hc : c = a
      · simp [hc]
      · simp [hc, Ne.symm hc]
    · by_cases h2 : a = k
      · subst h2
        simp only [lt_irrefl, if_false, if_true, Memory.lookup]
        by_cases hc : c = a
        · simp [hc]
        · simp [hc, Ne.symm hc]
      · simp only [h1, h2, if_false, Memory.lookup, ih]
        by_cases hk : k = c
        · subst hk
          simp [Ne.symm h2]
        · simp [hk]

/-- A write of `n` bytes sets exactly those bytes. -/
theorem lookup_writeBytes (m : Memory) (a n c : Nat) (f : Nat → Byte) :
    (m.writeBytes a f n).lookup c = if a ≤ c ∧ c < a + n then some (f (c - a)) else m.lookup c := by
  induction n with
  | zero => simp [Memory.writeBytes]
  | succ n ih =>
    rw [Memory.writeBytes, lookup_write, ih]
    by_cases h : c = a + n
    · simp [h]
    · by_cases h2 : a ≤ c ∧ c < a + n
      · have h3 : a ≤ c ∧ c < a + (n + 1) := by omega
        simp [h, h2, h3]
      · have h3 : ¬ (a ≤ c ∧ c < a + (n + 1)) := by omega
        simp [h, h2, h3]

/-- What lies in a written memory lay there before or is the byte written. -/
theorem mem_write (m : Memory) (a : Nat) (b : Byte) (p : Host.Cell) (h : p ∈ m.write a b) : p = (a, b) ∨ p ∈ m := by
  induction m with
  | nil => simpa [Memory.write] using h
  | cons q m ih =>
    obtain ⟨k, d⟩ := q
    simp only [Memory.write] at h
    split at h
    · simpa using h
    · split at h
      · rcases List.mem_cons.1 h with h | h
        · exact .inl h
        · exact .inr (List.mem_cons_of_mem _ h)
      · rcases List.mem_cons.1 h with h | h
        · exact .inr (by simp [h])
        · exact (ih h).imp id (List.mem_cons_of_mem _)

/-- One write keeps the canonical form. -/
theorem write_wf (size a : Nat) (b : Byte) (m : Memory) (ha : a < size) (h : m.wf size) : (m.write a b).wf size := by
  refine ⟨?_, fun p hp => ?_⟩
  · have hs := h.1
    clear h
    induction m with
    | nil => simp [Memory.write]
    | cons q m ih =>
      obtain ⟨k, d⟩ := q
      rw [List.pairwise_cons] at hs
      simp only [Memory.write]
      split
      · rename_i hlt
        simp only [List.pairwise_cons]
        refine ⟨fun p hp => ?_, hs⟩
        rcases List.mem_cons.1 hp with rfl | hp
        · exact hlt
        · exact lt_trans hlt (hs.1 p hp)
      · rename_i hnlt
        split
        · rename_i he
          subst he
          exact List.pairwise_cons.2 ⟨hs.1, hs.2⟩
        · rename_i hne
          refine List.pairwise_cons.2 ⟨fun p hp => ?_, ih hs.2⟩
          rcases mem_write m a b p hp with rfl | hp
          · show k < a
            omega
          · exact hs.1 p hp
  · rcases mem_write m a b p hp with rfl | hp
    · exact ha
    · exact h.2 p hp

/-- A write of bytes inside the memory keeps the canonical form. -/
theorem writeBytes_wf (size a n : Nat) (f : Nat → Byte) (m : Memory) (ha : a + n ≤ size) (h : m.wf size) :
    (m.writeBytes a f n).wf size := by
  induction n with
  | zero => exact h
  | succ n ih => exact write_wf size (a + n) (f n) _ (by omega) (ih (by omega))

/-- The memories of a reset state have the canonical form. -/
theorem empty_wf (size : Nat) : Memory.wf size [] := ⟨List.Pairwise.nil, fun _ h => by cases h⟩

/-- Reading a byte after a store. -/
theorem dmemByte_storeBytes (s : State) (a n c : Nat) (f : Nat → Byte) :
    (s.storeBytes a f n).dmemByte c = if a ≤ c ∧ c < a + n then f (c - a) else s.dmemByte c := by
  simp only [State.dmemByte, State.storeBytes_dmem, State.storeBytes_epoch, lookup_writeBytes]
  split <;> simp

/-- Reading a byte of instruction memory after a host write. -/
theorem imemByte_storeInstr (s : State) (a c : Nat) (w : Word) :
    (s.storeInstr a w).imemByte c = if a ≤ c ∧ c < a + 4 then byteOfWord w (c - a) else s.imemByte c := by
  simp only [State.imemByte, State.storeInstr_imem, State.storeInstr_epoch, lookup_writeBytes]
  split <;> simp

/-- Data memory reads depend on data memory and the reset number alone. -/
theorem dmemByte_congr (s t : State) (h : t.dmem = s.dmem) (he : t.epoch = s.epoch) (a : Nat) :
    t.dmemByte a = s.dmemByte a := by
  simp [State.dmemByte, h, he]

/-- Instruction memory reads depend on instruction memory and the reset number alone. -/
theorem imemByte_congr (s t : State) (h : t.imem = s.imem) (he : t.epoch = s.epoch) (a : Nat) :
    t.imemByte a = s.imemByte a := by
  simp [State.imemByte, h, he]

end Sys2Proof.Machine
end

