-- ==== Sys2Proof/Laws/Registers.lean ====
section
/-! SUPPORT. Reading registers after each update (R31, R34). -/

namespace Sys2Proof.Machine

@[simp] theorem readX_zero (s : State) : s.readX 0 = 0#32 := by simp [State.readX]

/-- A register reads what was last written to it; x0 reads 0 (R31). -/
theorem readX_writeX (s : State) (r q : XReg) (w : Word) :
    (s.writeX r w).readX q = if q = r ∧ r ≠ 0 then w else s.readX q := by
  simp only [State.readX, State.writeX_x]
  by_cases hq : q = 0
  · subst hq
    by_cases hr : r = 0
    · simp [hr]
    · simp [Ne.symm hr]
  · by_cases hr : r = 0
    · simp [hr, hq]
    · simp only [hq, hr, if_false, Vector.getElem_set, ne_eq, not_false_eq_true, and_true]
      by_cases he : q = r
      · simp [he]
      · have : r.val ≠ q.val := fun h => he (Fin.ext h.symm)
        simp [he, this]

@[simp] theorem readX_writeX_self (s : State) (r : XReg) (w : Word) (h : r ≠ 0) : (s.writeX r w).readX r = w := by
  simp [readX_writeX, h]

@[simp] theorem readX_writeX_other (s : State) (r q : XReg) (w : Word) (h : q ≠ r) :
    (s.writeX r w).readX q = s.readX q := by
  simp [readX_writeX, h]

/-- A vector register reads what was last written to it (R34). -/
theorem readV_writeV (s : State) (r q : VReg) (u : VWord) :
    (s.writeV r u).readV q = if q = r then u else s.readV q := by
  simp only [State.readV, State.writeV_v, Vector.getElem_set]
  by_cases he : q = r
  · simp [he]
  · have : r.val ≠ q.val := fun h => he (Fin.ext h.symm)
    simp [he, this]

/-- Reading a scalar register depends on the register file alone. -/
theorem readX_congr (s t : State) (h : t.x = s.x) (q : XReg) : t.readX q = s.readX q := by
  simp [State.readX, h]

/-- Reading a vector register depends on the register file alone. -/
theorem readV_congr (s t : State) (h : t.v = s.v) (q : VReg) : t.readV q = s.readV q := by
  simp [State.readV, h]

@[simp] theorem readX_writeV (s : State) (r : VReg) (u : VWord) (q : XReg) : (s.writeV r u).readX q = s.readX q := rfl
@[simp] theorem readX_setPc (s : State) (a : Word) (q : XReg) : (s.setPc a).readX q = s.readX q := rfl
@[simp] theorem readX_advance (s : State) (q : XReg) : s.advance.readX q = s.readX q := rfl
@[simp] theorem readX_setKlen (s : State) (w : Word) (q : XReg) : (s.setKlen w).readX q = s.readX q := rfl
@[simp] theorem readX_flagOverflow (s : State) (b : Bool) (q : XReg) : (s.flagOverflow b).readX q = s.readX q := rfl
@[simp] theorem readX_writeStatus (s : State) (w : Word) (q : XReg) : (s.writeStatus w).readX q = s.readX q := rfl
@[simp] theorem readX_storeBytes (s : State) (a n : Nat) (f : Nat → Byte) (q : XReg) :
    (s.storeBytes a f n).readX q = s.readX q := rfl
@[simp] theorem readX_storeInstr (s : State) (a : Nat) (w : Word) (q : XReg) :
    (s.storeInstr a w).readX q = s.readX q := rfl
@[simp] theorem readX_raise (s : State) (t : Trap) (w : Word) (q : XReg) : (s.raise t w).readX q = s.readX q := rfl
@[simp] theorem readX_halt (s : State) (q : XReg) : s.halt.readX q = s.readX q := rfl

@[simp] theorem readV_writeX (s : State) (r : XReg) (w : Word) (q : VReg) : (s.writeX r w).readV q = s.readV q := rfl
@[simp] theorem readV_setPc (s : State) (a : Word) (q : VReg) : (s.setPc a).readV q = s.readV q := rfl
@[simp] theorem readV_advance (s : State) (q : VReg) : s.advance.readV q = s.readV q := rfl
@[simp] theorem readV_setKlen (s : State) (w : Word) (q : VReg) : (s.setKlen w).readV q = s.readV q := rfl
@[simp] theorem readV_flagOverflow (s : State) (b : Bool) (q : VReg) : (s.flagOverflow b).readV q = s.readV q := rfl
@[simp] theorem readV_writeStatus (s : State) (w : Word) (q : VReg) : (s.writeStatus w).readV q = s.readV q := rfl
@[simp] theorem readV_storeBytes (s : State) (a n : Nat) (f : Nat → Byte) (q : VReg) :
    (s.storeBytes a f n).readV q = s.readV q := rfl
@[simp] theorem readV_storeInstr (s : State) (a : Nat) (w : Word) (q : VReg) :
    (s.storeInstr a w).readV q = s.readV q := rfl
@[simp] theorem readV_raise (s : State) (t : Trap) (w : Word) (q : VReg) : (s.raise t w).readV q = s.readV q := rfl
@[simp] theorem readV_halt (s : State) (q : VReg) : s.halt.readV q = s.readV q := rfl

/-- A file of registers holds what it was made of. -/
theorem getElem_regs16 {α : Type} (f : Fin 16 → α) (i : Fin 16) : (regs16 f)[i.val] = f i := by
  fin_cases i <;> rfl

end Sys2Proof.Machine
end

