-- ==== Sys2Proof/Laws/Frames.lean ====
section
/-! SUPPORT. What each shared ending of an instruction does, once: what it writes, and that it changes nothing else. -/

namespace Sys2Proof.Machine

/-! ## Updates of one thing -/

theorem sameRest_refl (s : State) : SameRest s s :=
  ⟨rfl, rfl, rfl, rfl, rfl, rfl, rfl, rfl, fun _ => rfl, rfl, rfl, rfl⟩

/-- A scalar write with OVF flagged and pc moved changes only that register, OVF and pc. -/
theorem onlyScalar_writeX (s : State) (rd : XReg) (w : Word) (b : Bool) (a : Word) :
    OnlyScalar rd s (((s.flagOverflow b).writeX rd w).setPc a) where
  scalars := fun r hr => by simp [hr]
  vectors := fun _ => rfl
  dmem := fun _ => rfl
  rest := ⟨rfl, rfl, rfl, rfl, rfl, rfl, rfl, rfl, fun _ => rfl, rfl, rfl, rfl⟩

/-- A vector write with OVF flagged and pc moved changes only that register, OVF and pc. -/
theorem onlyVector_writeV (s : State) (vd : VReg) (u : VWord) (b : Bool) (a : Word) :
    OnlyVector vd s (((s.flagOverflow b).writeV vd u).setPc a) where
  scalars := fun _ => rfl
  vectors := fun r hr => by simp [readV_writeV, hr]
  dmem := fun _ => rfl
  rest := ⟨rfl, rfl, rfl, rfl, rfl, rfl, rfl, rfl, fun _ => rfl, rfl, rfl, rfl⟩

/-- A scalar write that leaves OVF alone. -/
theorem onlyScalar_writeX_advance (s : State) (rd : XReg) (w : Word) : OnlyScalar rd s (s.writeX rd w).advance where
  scalars := fun r hr => by simp [hr]
  vectors := fun _ => rfl
  dmem := fun _ => rfl
  rest := ⟨rfl, rfl, rfl, rfl, rfl, rfl, rfl, rfl, fun _ => rfl, rfl, rfl, rfl⟩

/-- A vector write that leaves OVF alone. -/
theorem onlyVector_writeV_advance (s : State) (vd : VReg) (u : VWord) : OnlyVector vd s (s.writeV vd u).advance where
  scalars := fun _ => rfl
  vectors := fun r hr => by simp [readV_writeV, hr]
  dmem := fun _ => rfl
  rest := ⟨rfl, rfl, rfl, rfl, rfl, rfl, rfl, rfl, fun _ => rfl, rfl, rfl, rfl⟩

/-- A store changes only the bytes it stores to, and pc. -/
theorem onlyStore_storeBytes (s : State) (a n : Nat) (f : Nat → Byte) :
    OnlyStore a n s (s.storeBytes a f n).advance where
  scalars := fun _ => rfl
  vectors := fun _ => rfl
  ovf := rfl
  dmem := fun b hb => by
    show (s.storeBytes a f n).dmemByte b = s.dmemByte b
    rw [dmemByte_storeBytes, if_neg (by omega)]
  rest := ⟨rfl, rfl, rfl, rfl, rfl, rfl, rfl, rfl, fun _ => rfl, rfl, rfl, rfl⟩

/-- A move of pc changes only pc. -/
theorem onlyPc_setPc (s : State) (a : Word) : OnlyPc s (s.setPc a) where
  scalars := fun _ => rfl
  vectors := fun _ => rfl
  ovf := rfl
  dmem := fun _ => rfl
  rest := ⟨rfl, rfl, rfl, rfl, rfl, rfl, rfl, rfl, fun _ => rfl, rfl, rfl, rfl⟩

/-! ## Shared endings -/

/-- `writeExact` writes the wrapped value (x0 stays 0), flags OVF when the exact value does not fit, moves pc by 4, and
changes nothing else (R230). -/
theorem writeExact_spec (s : State) (rd : XReg) (z : Int) :
    (((s.writeExact rd z).readX rd).toInt = if rd = 0 then 0 else z.bmod 4294967296) ∧
    ((s.writeExact rd z).ovf = true ↔ s.ovf = true ∨ z < -2147483648 ∨ z > 2147483647) ∧
    (s.writeExact rd z).pc = s.pc + 4#32 ∧ OnlyScalar rd s (s.writeExact rd z) := by
  refine ⟨?_, ?_, rfl, onlyScalar_writeX s rd _ _ _⟩
  · by_cases h : rd = 0
    · subst h
      simp
    · simp [State.writeExact, h]
  · simp only [State.writeExact, State.advance_ovf, State.writeX_ovf, State.flagOverflow_ovf, Bool.or_eq_true,
      not_fits32_iff]

/-- `writeLanes` writes each wrapped lane, flags OVF when some exact lane does not fit, moves pc by 4, and changes
nothing else (R146, R147). -/
theorem writeLanes_spec (s : State) (vd : VReg) (f : Nat → Int) :
    (∀ j, j < 8 → e32 ((s.writeLanes vd f).readV vd) j = wrap32 (f j)) ∧
    ((s.writeLanes vd f).ovf = true ↔ s.ovf = true ∨ ∃ j, j < 8 ∧ (f j < -2147483648 ∨ f j > 2147483647)) ∧
    (s.writeLanes vd f).pc = s.pc + 4#32 ∧ OnlyVector vd s (s.writeLanes vd f) := by
  refine ⟨fun j hj => ?_, ?_, rfl, onlyVector_writeV s vd _ _ _⟩
  · simp [State.writeLanes, readV_writeV, hj]
  · simp only [State.writeLanes, State.advance_ovf, State.writeV_ovf, State.flagOverflow_ovf, Bool.or_eq_true,
      someLaneOverflows_iff]

/-- `writeScaled` writes the scaled value (x0 stays 0), flags OVF when the product by ESCALE does not fit, moves pc by
4, and changes nothing else (R201). -/
theorem writeScaled_spec (s : State) (rd : XReg) (output : Word) (bias : Half) :
    ((s.writeScaled rd output bias).readX rd = if rd = 0 then 0#32 else scaleResult output bias) ∧
    ((s.writeScaled rd output bias).ovf = true ↔
      s.ovf = true ∨ scaleProduct output bias < -2147483648 ∨ scaleProduct output bias > 2147483647) ∧
    (s.writeScaled rd output bias).pc = s.pc + 4#32 ∧ OnlyScalar rd s (s.writeScaled rd output bias) := by
  refine ⟨?_, ?_, rfl, onlyScalar_writeX s rd _ _ _⟩
  · by_cases h : rd = 0
    · subst h
      simp
    · simp [State.writeScaled, h]
  · simp only [State.writeScaled, State.advance_ovf, State.writeX_ovf, State.flagOverflow_ovf, Bool.or_eq_true,
      not_fits32_iff]

/-- Fault entry leaves the record and nothing else changed (R322, R330). -/
theorem raise_faulted (s : State) (t : Trap) (w : Word) :
    Faulted t.cause t.info (if t.cause = .fetchFault then 0#32 else w) s (s.raise t w) :=
  ⟨rfl, rfl, rfl, rfl, rfl, rfl, rfl, rfl, rfl, rfl, fun _ => rfl, fun _ => rfl, fun _ => rfl, fun _ => rfl,
    rfl, rfl, rfl⟩

/-- A checked instruction either has no failing check and takes its effect, or raises its first one. -/
theorem checked_cases (s : State) (i : Instr) (trap : Option Trap) (effect : State → State) :
    (trap = none ∧ s.checked i trap effect = effect s) ∨
    (∃ t, trap = some t ∧ s.checked i trap effect = s.raise t (encode i)) := by
  cases trap with
  | none => exact .inl ⟨rfl, rfl⟩
  | some t => exact .inr ⟨t, rfl, rfl⟩

@[simp] theorem checked_none (s : State) (i : Instr) (effect : State → State) : s.checked i none effect = effect s :=
  rfl

@[simp] theorem checked_some (s : State) (i : Instr) (t : Trap) (effect : State → State) :
    s.checked i (some t) effect = s.raise t (encode i) := rfl

end Sys2Proof.Machine
end

