-- ==== Sys2Proof/Laws/Checks.lean ====
section
/-! SUPPORT. When the checks of an access or a kernel pass, and what fails first (R76, R181); and what the reads they
guard return. -/

namespace Sys2Proof.Machine

/-- The checks of R76 pass exactly on an aligned access inside data memory. -/
theorem accessTrap_eq_none_iff (mis acc : Cause) (align size : Nat) (a : Word) :
    accessTrap mis acc align size a = none ↔ a.toNat % align = 0 ∧ a.toNat + size ≤ 65536 := by
  unfold accessTrap Config.dmemSize
  split
  · simp_all
  · split
    · simp_all
    · simp_all

/-- What R76 raises: the misalignment first, then the range. -/
theorem accessTrap_eq_some (mis acc : Cause) (align size : Nat) (a : Word) (t : Trap)
    (h : accessTrap mis acc align size a = some t) :
    (a.toNat % align ≠ 0 ∧ t = ⟨mis, a⟩) ∨ (a.toNat % align = 0 ∧ a.toNat + size > 65536 ∧ t = ⟨acc, a⟩) := by
  unfold accessTrap Config.dmemSize at h
  split at h
  · rename_i h1
    simp only [Option.some.injEq] at h
    exact .inl ⟨h1, h.symm⟩
  · rename_i h1
    split at h
    · rename_i h2
      simp only [Option.some.injEq] at h
      exact .inr ⟨by omega, h2, h.symm⟩
    · cases h

theorem accessTrap_misaligned (mis acc : Cause) (align size : Nat) (a : Word) (h : a.toNat % align ≠ 0) :
    accessTrap mis acc align size a = some ⟨mis, a⟩ := by
  simp [accessTrap, h]

theorem accessTrap_outside (mis acc : Cause) (align size : Nat) (a : Word) (h : a.toNat % align = 0)
    (h2 : a.toNat + size > 65536) : accessTrap mis acc align size a = some ⟨acc, a⟩ := by
  simp [accessTrap, Config.dmemSize, h, h2]

/-- KLEN passes exactly when it is a nonzero multiple of 16 (R43, R181). -/
theorem klenTrap_eq_none_iff (klen : Word) : klenTrap klen = none ↔ 0 < klen.toNat ∧ klen.toNat % 16 = 0 := by
  unfold klenTrap Config.ne16
  split
  · rename_i h
    simp
    omega
  · rename_i h
    simp
    omega

/-- The checks of R181 pass exactly when the kernel is ready. -/
theorem kernelTrap_eq_none_iff (klen bu bt bw : Word) :
    kernelTrap klen bu bt bw = none ↔ KernelReady klen.toNat bu.toNat bt.toNat bw.toNat := by
  simp only [kernelTrap, Option.or_eq_none_iff, klenTrap_eq_none_iff, bufferTrap, accessTrap_eq_none_iff, Config.vlenb]
  constructor
  · rintro ⟨⟨h1, h2⟩, ⟨h3, h4⟩, ⟨h5, h6⟩, h7, h8⟩
    exact ⟨h1, h2, h3, h4, h5, h6, h7, h8⟩
  · rintro ⟨h1, h2, h3, h4, h5, h6, h7, h8⟩
    exact ⟨⟨h1, h2⟩, ⟨h3, h4⟩, ⟨h5, h6⟩, h7, h8⟩

/-- What a failing kernel check can raise, and what it says of the value it records (R181, R325). -/
theorem kernelTrap_eq_some (klen bu bt bw : Word) (t : Trap) (h : kernelTrap klen bu bt bw = some t) :
    (t.cause = .klenInvalid ∧ (t.info.toNat = 0 ∨ t.info.toNat % 16 ≠ 0)) ∨
    (t.cause = .loadMisaligned ∧ t.info.toNat % 32 ≠ 0) ∨ t.cause = .loadAccess := by
  have buffer : ∀ n b, bufferTrap n b = some t →
      (t.cause = .loadMisaligned ∧ t.info.toNat % 32 ≠ 0) ∨ t.cause = .loadAccess := by
    intro n b hb
    rcases accessTrap_eq_some _ _ _ _ _ _ hb with ⟨h1, rfl⟩ | ⟨_, _, rfl⟩
    · exact .inl ⟨rfl, h1⟩
    · exact .inr rfl
  simp only [kernelTrap, Option.or_eq_some_iff] at h
  rcases h with h | ⟨-, h | ⟨-, h | ⟨-, h⟩⟩⟩
  · left
    unfold klenTrap Config.ne16 at h
    split at h
    · rename_i hk
      simp only [Option.some.injEq] at h
      subst h
      exact ⟨rfl, hk⟩
    · cases h
  all_goals exact .inr (buffer _ _ h)

/-- The effective address as a number (R260). -/
theorem toNat_effectiveAddress (base : Word) (imm : Int) :
    ((effectiveAddress base imm).toNat : Int) = ((base.toNat : Int) + imm) % 4294967296 := by
  simp only [effectiveAddress, BitVec.toNat_ofInt]
  omega

/-- The target of a branch as a number (R280). -/
theorem toNat_branchTarget (pc : Word) (off : Int) :
    ((branchTarget pc off).toNat : Int) = ((pc.toNat : Int) + off * 4) % 4294967296 := by
  simp only [branchTarget, BitVec.toNat_ofInt]
  omega

/-- A branch changes only pc, and sets it to its target or to pc + 4 (R281 to R283). -/
theorem branch_spec (s : State) (taken : Bool) (off : Int) :
    OnlyPc s (s.branch taken off) ∧ ((s.branch taken off).pc.toNat : Int) =
      ((s.pc.toNat : Int) + if taken then 4 * off else 4) % 4294967296 := by
  refine ⟨onlyPc_setPc s _, ?_⟩
  cases taken
  · simp [State.branch, BitVec.toNat_add]
  · have := toNat_branchTarget s.pc off
    simp [State.branch]
    omega

/-- A loaded word is its four bytes, the first least significant (R72). -/
theorem loadWord_eq_append (s : State) (a : Nat) :
    s.loadWord a = (s.dmemByte (a + 3) ++ s.dmemByte (a + 2) ++ s.dmemByte (a + 1) ++ s.dmemByte a : BitVec 32) := by
  apply BitVec.eq_of_getLsbD_eq
  intro i hi
  rw [State.loadWord, getLsbD_pack _ _ (by omega)]
  simp only [BitVec.getLsbD_append]
  by_cases h0 : i < 8
  · simp [h0, hi, Nat.div_eq_of_lt h0, Nat.mod_eq_of_lt h0]
  · by_cases h1 : i < 16
    · have : i / 8 = 1 := by omega
      have h : i % 8 = i - 8 := by omega
      simp [h0, hi, this, h, show i - 8 < 8 by omega]
    · by_cases h2 : i < 24
      · have : i / 8 = 2 := by omega
        have h : i % 8 = i - 8 - 8 := by omega
        simp [h0, hi, this, h, show ¬ i - 8 < 8 by omega, show i - 8 - 8 < 8 by omega]
      · have : i / 8 = 3 := by omega
        have h : i % 8 = i - 8 - 8 - 8 := by omega
        simp [h0, hi, this, h, show ¬ i - 8 < 8 by omega, show ¬ i - 8 - 8 < 8 by omega]

/-- A buffer element is its two bytes, the first least significant, read as signed (R73). -/
theorem element_eq_bufferElement (s : State) (base i : Nat) : s.element base i = bufferElement s base i := by
  unfold State.element State.loadHalf bufferElement
  congr 1
  apply BitVec.eq_of_getLsbD_eq
  intro b hb
  rw [getLsbD_pack _ _ (by omega)]
  simp only [BitVec.getLsbD_append]
  by_cases h0 : b < 8
  · simp [h0, hb, Nat.div_eq_of_lt h0, Nat.mod_eq_of_lt h0]
  · have : b / 8 = 1 := by omega
    have h : b % 8 = b - 8 := by omega
    simp [h0, hb, this, h]

/-- Element `k` of a loaded vector is element `k` of the buffer at its address (R73). -/
theorem toInt_e16_loadVector (s : State) (a k : Nat) (hk : k < 16) :
    (e16 (s.loadVector a) k).toInt = s.element a k := by
  unfold State.element State.loadHalf
  congr 1
  apply BitVec.eq_of_getLsbD_eq
  intro b hb
  simp only [e16, State.loadVector, BitVec.getLsbD_extractLsb', Config.vlenb]
  rw [getLsbD_pack _ _ (by omega), getLsbD_pack _ _ (by omega)]
  have h1 : (16 * k + b) / 8 = 2 * k + b / 8 := by omega
  have h2 : (16 * k + b) % 8 = b % 8 := by omega
  have h3 : 16 * k + b < 256 := by omega
  simp [hb, h1, h2, h3, Nat.add_assoc]

/-- A buffer read in chunks: element `16c + k` of a buffer is element `k` of its chunk `c` (R73). -/
theorem element_chunk (s : State) (a c k : Nat) : s.element (a + 32 * c) k = s.element a (16 * c + k) := by
  unfold State.element
  congr 1
  omega

end Sys2Proof.Machine
end

