-- ==== Sys2Proof/Laws/Encoding.lean ====
section
/-! SUPPORT. The words the encoder makes, as numbers, and the fields read back from them (R102 to R111). -/

namespace Sys2Proof

/-- Concatenation as a number. -/
theorem toNat_append_eq {n m : Nat} (x : BitVec n) (y : BitVec m) :
    (x ++ y).toNat = x.toNat * 2 ^ m + y.toNat := by
  rw [BitVec.toNat_append, ← Nat.shiftLeft_add_eq_or_of_lt y.isLt, Nat.shiftLeft_eq]

theorem toNat_formatR (op : BitVec 6) (a b c d e : Fin 16) : (formatR op a b c d e).toNat =
    op.toNat * 67108864 + a.val * 4194304 + b.val * 262144 + c.val * 16384 + d.val * 1024 + e.val * 64 := by
  unfold formatR
  simp only [toNat_append_eq]
  simp
  omega

theorem toNat_formatI (op : BitVec 6) (a b : Fin 16) (z : Int) : (formatI op a b z).toNat =
    op.toNat * 67108864 + a.val * 4194304 + b.val * 262144 + (BitVec.ofInt 18 z).toNat := by
  unfold formatI
  simp only [toNat_append_eq]
  simp
  omega

theorem toNat_formatJ (op : BitVec 6) (z : Int) : (formatJ op z).toNat =
    op.toNat * 67108864 + (BitVec.ofInt 26 z).toNat := by
  unfold formatJ
  simp only [toNat_append_eq]
  norm_num

theorem toNat_formatC (op : BitVec 6) (a b : Fin 16) (n : Nat) : (formatC op a b n).toNat =
    op.toNat * 67108864 + a.val * 4194304 + b.val * 262144 + (BitVec.ofNat 12 n).toNat := by
  unfold formatC
  simp only [toNat_append_eq]
  simp
  omega

@[simp] theorem opField_formatR (op : BitVec 6) (a b c d e : Fin 16) :
    opField (formatR op a b c d e) = op := by
  apply BitVec.eq_of_toNat_eq
  simp only [opField, toNat_formatR, BitVec.extractLsb'_toNat, Nat.shiftRight_eq_div_pow]
  have := op.isLt
  omega

@[simp] theorem fieldA_formatR (op : BitVec 6) (a b c d e : Fin 16) :
    fieldA (formatR op a b c d e) = a := by
  apply Fin.ext
  simp only [fieldA, BitVec.val_toFin, toNat_formatR, BitVec.extractLsb'_toNat, Nat.shiftRight_eq_div_pow]
  have := op.isLt
  omega

@[simp] theorem fieldB_formatR (op : BitVec 6) (a b c d e : Fin 16) :
    fieldB (formatR op a b c d e) = b := by
  apply Fin.ext
  simp only [fieldB, BitVec.val_toFin, toNat_formatR, BitVec.extractLsb'_toNat, Nat.shiftRight_eq_div_pow]
  have := op.isLt
  omega

@[simp] theorem fieldC_formatR (op : BitVec 6) (a b c d e : Fin 16) :
    fieldC (formatR op a b c d e) = c := by
  apply Fin.ext
  simp only [fieldC, BitVec.val_toFin, toNat_formatR, BitVec.extractLsb'_toNat, Nat.shiftRight_eq_div_pow]
  have := op.isLt
  omega

@[simp] theorem fieldD_formatR (op : BitVec 6) (a b c d e : Fin 16) :
    fieldD (formatR op a b c d e) = d := by
  apply Fin.ext
  simp only [fieldD, BitVec.val_toFin, toNat_formatR, BitVec.extractLsb'_toNat, Nat.shiftRight_eq_div_pow]
  have := op.isLt
  omega

@[simp] theorem fieldE_formatR (op : BitVec 6) (a b c d e : Fin 16) :
    fieldE (formatR op a b c d e) = e := by
  apply Fin.ext
  simp only [fieldE, BitVec.val_toFin, toNat_formatR, BitVec.extractLsb'_toNat, Nat.shiftRight_eq_div_pow]
  have := op.isLt
  omega

@[simp] theorem opField_formatI (op : BitVec 6) (a b : Fin 16) (z : Int) :
    opField (formatI op a b z) = op := by
  apply BitVec.eq_of_toNat_eq
  simp only [opField, toNat_formatI, BitVec.extractLsb'_toNat, Nat.shiftRight_eq_div_pow]
  have := op.isLt
  have := (BitVec.ofInt 18 z).isLt
  omega

@[simp] theorem fieldA_formatI (op : BitVec 6) (a b : Fin 16) (z : Int) :
    fieldA (formatI op a b z) = a := by
  apply Fin.ext
  simp only [fieldA, BitVec.val_toFin, toNat_formatI, BitVec.extractLsb'_toNat, Nat.shiftRight_eq_div_pow]
  have := op.isLt
  have := (BitVec.ofInt 18 z).isLt
  omega

@[simp] theorem fieldB_formatI (op : BitVec 6) (a b : Fin 16) (z : Int) :
    fieldB (formatI op a b z) = b := by
  apply Fin.ext
  simp only [fieldB, BitVec.val_toFin, toNat_formatI, BitVec.extractLsb'_toNat, Nat.shiftRight_eq_div_pow]
  have := op.isLt
  have := (BitVec.ofInt 18 z).isLt
  omega

@[simp] theorem opField_formatJ (op : BitVec 6) (z : Int) :
    opField (formatJ op z) = op := by
  apply BitVec.eq_of_toNat_eq
  simp only [opField, toNat_formatJ, BitVec.extractLsb'_toNat, Nat.shiftRight_eq_div_pow]
  have := op.isLt
  have := (BitVec.ofInt 26 z).isLt
  omega

@[simp] theorem opField_formatC (op : BitVec 6) (a b : Fin 16) (n : Nat) :
    opField (formatC op a b n) = op := by
  apply BitVec.eq_of_toNat_eq
  simp only [opField, toNat_formatC, BitVec.extractLsb'_toNat, Nat.shiftRight_eq_div_pow]
  have := op.isLt
  have := (BitVec.ofNat 12 n).isLt
  omega

@[simp] theorem fieldA_formatC (op : BitVec 6) (a b : Fin 16) (n : Nat) :
    fieldA (formatC op a b n) = a := by
  apply Fin.ext
  simp only [fieldA, BitVec.val_toFin, toNat_formatC, BitVec.extractLsb'_toNat, Nat.shiftRight_eq_div_pow]
  have := op.isLt
  have := (BitVec.ofNat 12 n).isLt
  omega

@[simp] theorem fieldB_formatC (op : BitVec 6) (a b : Fin 16) (n : Nat) :
    fieldB (formatC op a b n) = b := by
  apply Fin.ext
  simp only [fieldB, BitVec.val_toFin, toNat_formatC, BitVec.extractLsb'_toNat, Nat.shiftRight_eq_div_pow]
  have := op.isLt
  have := (BitVec.ofNat 12 n).isLt
  omega

/-- An 18-bit immediate in range is read back as it was written (R108, R109). -/
theorem imm18Field_formatI (op : BitVec 6) (a b : Fin 16) (z : Int) (h : fitsImm18 z = true) :
    imm18Field (formatI op a b z) = z := by
  have hw : (formatI op a b z).extractLsb' 0 18 = BitVec.ofInt 18 z := by
    apply BitVec.eq_of_toNat_eq
    simp only [BitVec.extractLsb'_toNat, toNat_formatI, Nat.shiftRight_eq_div_pow]
    have := (BitVec.ofInt 18 z).isLt
    omega
  simp only [fitsImm18, Bool.and_eq_true, decide_eq_true_eq] at h
  rw [imm18Field, hw, BitVec.toInt_ofInt]
  apply Int.bmod_eq_of_le <;> omega

/-- A 26-bit immediate in range is read back as it was written (R110). -/
theorem imm26Field_formatJ (op : BitVec 6) (z : Int) (h : fitsImm26 z = true) : imm26Field (formatJ op z) = z := by
  have hw : (formatJ op z).extractLsb' 0 26 = BitVec.ofInt 26 z := by
    apply BitVec.eq_of_toNat_eq
    simp only [BitVec.extractLsb'_toNat, toNat_formatJ, Nat.shiftRight_eq_div_pow]
    have := (BitVec.ofInt 26 z).isLt
    omega
  simp only [fitsImm26, Bool.and_eq_true, decide_eq_true_eq] at h
  rw [imm26Field, hw, BitVec.toInt_ofInt]
  apply Int.bmod_eq_of_le <;> omega

/-- A CSR number in range is read back as it was written (R111). -/
theorem csrField_formatC (op : BitVec 6) (a b : Fin 16) (n : Nat) (h : fitsCsr n = true) :
    csrField (formatC op a b n) = n := by
  simp only [fitsCsr, decide_eq_true_eq] at h
  have : (BitVec.ofNat 12 n).toNat = n := by rw [BitVec.toNat_ofNat]; omega
  simp only [csrField, BitVec.extractLsb'_toNat, toNat_formatC, Nat.shiftRight_eq_div_pow, this]
  omega

end Sys2Proof
end

