-- ==== Sys2Proof/Laws/Exec.lean ====
section
/-! SUPPORT. What an instruction, the engine's turn and a step can do, once each: the inversion lemmas from which the
whole-machine rules follow. -/

namespace Sys2Proof.Machine

/-- The scalar register an instruction names as its destination (R32). -/
def scalarDest : Instr → Option XReg
  | .csrr rd _ => some rd
  | .add rd _ _ => some rd
  | .sub rd _ _ => some rd
  | .mul rd _ _ => some rd
  | .div rd _ _ => some rd
  | .addi rd _ _ => some rd
  | .valscale rd _ _ => some rd
  | .lw rd _ _ => some rd
  | .vhsum32 rd _ => some rd
  | .kpolicy rd _ _ _ => some rd
  | .kvalue rd _ _ _ _ => some rd
  | _ => none

/-- The vector register an instruction names as its destination (R36). -/
def vectorDest : Instr → Option VReg
  | .vld vd _ _ => some vd
  | .vzero vd => some vd
  | .vset1 vd _ => some vd
  | .vmin16 vd _ _ => some vd
  | .vmax16 vd _ _ => some vd
  | .vmullo16 vd _ _ => some vd
  | .vmadd16 vd _ _ => some vd
  | .vadd32 vd _ _ => some vd
  | _ => none

/-- The instructions whose exact result may not fit (R41). -/
def canOverflow : Instr → Bool
  | .add _ _ _ => true
  | .sub _ _ _ => true
  | .mul _ _ _ => true
  | .div _ _ _ => true
  | .addi _ _ _ => true
  | .valscale _ _ _ => true
  | .vmadd16 _ _ _ => true
  | .vadd32 _ _ _ => true
  | .vhsum32 _ _ => true
  | .kpolicy _ _ _ _ => true
  | .kvalue _ _ _ _ _ => true
  | _ => false

/-- What a decoded instruction may raise, and what R325 says of the value it records. -/
inductive InstrTrap : Trap → Prop where
  | illegal : InstrTrap illegalTrap
  | divByZero : InstrTrap ⟨.divByZero, 0#32⟩
  | klen (w : Word) (h : w.toNat = 0 ∨ w.toNat % 16 ≠ 0) : InstrTrap ⟨.klenInvalid, w⟩
  | loadMisaligned (w : Word) (h : w.toNat % 32 ≠ 0) : InstrTrap ⟨.loadMisaligned, w⟩
  | loadAccess (w : Word) : InstrTrap ⟨.loadAccess, w⟩
  | storeMisaligned (w : Word) (h : w.toNat % 32 ≠ 0) : InstrTrap ⟨.storeMisaligned, w⟩
  | storeAccess (w : Word) : InstrTrap ⟨.storeAccess, w⟩

theorem instrTrap_of_loadTrap (n : Nat) (a : Word) (t : Trap) (hn : n ∣ 32) (h : loadTrap n a = some t) :
    InstrTrap t := by
  rcases accessTrap_eq_some _ _ _ _ _ _ h with ⟨h1, rfl⟩ | ⟨_, _, rfl⟩
  · exact .loadMisaligned a (fun h2 => h1 (Nat.mod_eq_zero_of_dvd (hn.trans (Nat.dvd_of_mod_eq_zero h2))))
  · exact .loadAccess a

theorem instrTrap_of_storeTrap (n : Nat) (a : Word) (t : Trap) (hn : n ∣ 32) (h : storeTrap n a = some t) :
    InstrTrap t := by
  rcases accessTrap_eq_some _ _ _ _ _ _ h with ⟨h1, rfl⟩ | ⟨_, _, rfl⟩
  · exact .storeMisaligned a (fun h2 => h1 (Nat.mod_eq_zero_of_dvd (hn.trans (Nat.dvd_of_mod_eq_zero h2))))
  · exact .storeAccess a

theorem instrTrap_of_kernelTrap (k bu bt bw : Word) (t : Trap) (h : kernelTrap k bu bt bw = some t) :
    InstrTrap t := by
  obtain ⟨c, w⟩ := t
  rcases kernelTrap_eq_some _ _ _ _ _ h with ⟨hc, hw⟩ | ⟨hc, hw⟩ | hc <;> cases hc
  · exact .klen w hw
  · exact .loadMisaligned w hw
  · exact .loadAccess w

/-- The next state of an instruction: one of eight shapes (R18). -/
inductive InstrEffect (i : Instr) (s : State) : State → Prop where
  /-- It raises, having written nothing. -/
  | raised (t : Trap) (h : InstrTrap t) : InstrEffect i s (s.raise t (encode i))
  /-- It writes its scalar destination and perhaps OVF. -/
  | scalar (rd : XReg) (w : Word) (b : Bool) (hd : scalarDest i = some rd) (hb : b = true → canOverflow i = true) :
      InstrEffect i s ((s.flagOverflow b).writeX rd w).advance
  /-- It writes its vector destination and perhaps OVF. -/
  | vector (vd : VReg) (u : VWord) (b : Bool) (hd : vectorDest i = some vd) (hb : b = true → canOverflow i = true) :
      InstrEffect i s ((s.flagOverflow b).writeV vd u).advance
  /-- SW stores a word inside data memory. -/
  | storeWord (rt rs1 : XReg) (imm : Int) (hi : i = .sw rt rs1 imm)
      (hin : (s.address rs1 imm).toNat + 4 ≤ Config.dmemSize) :
      InstrEffect i s (s.storeWord (s.address rs1 imm).toNat (s.readX rt)).advance
  /-- VST stores a vector inside data memory. -/
  | storeVector (vt : VReg) (rs1 : XReg) (imm : Int) (hi : i = .vst vt rs1 imm)
      (hin : (s.address rs1 imm).toNat + 32 ≤ Config.dmemSize) :
      InstrEffect i s (s.storeVector (s.address rs1 imm).toNat (s.readV vt)).advance
  /-- It moves pc alone, by 4 or to a target. -/
  | moved (a : Word) (h : a = s.pc + 4#32 ∨ ∃ off, a = branchTarget s.pc off) : InstrEffect i s (s.setPc a)
  /-- HALT. -/
  | halted (hi : i = .halt) : InstrEffect i s s.halt
  /-- CSRW STATUS. -/
  | status (rs1 : XReg) (hi : i = .csrw 0x000 rs1) : InstrEffect i s (s.writeStatus (s.readX rs1)).advance
  /-- CSRW KLEN. -/
  | klen (rs1 : XReg) (hi : i = .csrw 0x010 rs1) : InstrEffect i s (s.setKlen (s.readX rs1)).advance

/-- OVF flagged with nothing is OVF unchanged. -/
theorem flagOverflow_false (s : State) : s.flagOverflow false = s := by
  simp [State.flagOverflow]

/-- Flags add up. -/
theorem flagOverflow_flagOverflow (s : State) (a b : Bool) :
    (s.flagOverflow a).flagOverflow b = s.flagOverflow (a || b) := by
  simp [State.flagOverflow, Bool.or_assoc]

theorem effect_of_scalar (i : Instr) (s : State) (rd : XReg) (w : Word) (hd : scalarDest i = some rd) :
    InstrEffect i s (s.writeX rd w).advance := by
  have h := InstrEffect.scalar (i := i) (s := s) rd w false hd (fun h => by cases h)
  rwa [flagOverflow_false] at h

theorem effect_of_vector (i : Instr) (s : State) (vd : VReg) (u : VWord) (hd : vectorDest i = some vd) :
    InstrEffect i s (s.writeV vd u).advance := by
  have h := InstrEffect.vector (i := i) (s := s) vd u false hd (fun h => by cases h)
  rwa [flagOverflow_false] at h

theorem effect_of_branch (i : Instr) (s : State) (b : Bool) (off : Int) : InstrEffect i s (s.branch b off) := by
  refine .moved _ ?_
  cases b
  · exact .inl rfl
  · exact .inr ⟨off, rfl⟩

/-- A checked instruction raises what its checks raise, or has its effect, its checks having passed. -/
theorem effect_of_checked (i : Instr) (s : State) (trap : Option Trap) (effect : State → State)
    (ht : ∀ t, trap = some t → InstrTrap t) (he : trap = none → InstrEffect i s (effect s)) :
    InstrEffect i s (s.checked i trap effect) := by
  cases trap with
  | none => exact he rfl
  | some t => exact .raised t (ht t rfl)

theorem csrOf_eq_status (n : Nat) (h : csrOf n = some .status) : n = 0x000 := by
  unfold csrOf at h
  split at h <;> first | rfl | cases h

theorem csrOf_eq_klen (n : Nat) (h : csrOf n = some .klen) : n = 0x010 := by
  unfold csrOf at h
  split at h <;> first | rfl | cases h

/-- A control register write is STATUS's, KLEN's, or none (R302). -/
theorem writeCsr_cases (s : State) (c : Csr) (w : Word) :
    (c = .status ∧ s.writeCsr c w = some (s.writeStatus w)) ∨ (c = .klen ∧ s.writeCsr c w = some (s.setKlen w)) ∨
    (c ≠ .status ∧ c ≠ .klen ∧ s.writeCsr c w = none) := by
  cases c <;> simp [State.writeCsr]

theorem effect_of_csrw (s : State) (n : Nat) (rs1 : XReg) (t : State) (h : execCsrw n rs1 s = .next t) :
    InstrEffect (.csrw n rs1) s t := by
  unfold execCsrw at h
  rw [Host.Outcome.next.injEq] at h
  subst h
  cases hc : csrOf n with
  | none => exact .raised illegalTrap .illegal
  | some c =>
    rcases writeCsr_cases s c (s.readX rs1) with ⟨rfl, hw⟩ | ⟨rfl, hw⟩ | ⟨_, _, hw⟩
    · have := csrOf_eq_status n hc
      subst this
      simp only [Option.bind_some, hw]
      exact .status rs1 rfl
    · have := csrOf_eq_klen n hc
      subst this
      simp only [Option.bind_some, hw]
      exact .klen rs1 rfl
    · simp only [Option.bind_some, hw]
      exact .raised illegalTrap .illegal

theorem effect_of_csrr (s : State) (rd : XReg) (n : Nat) (t : State) (h : execCsrr rd n s = .next t) :
    InstrEffect (.csrr rd n) s t := by
  unfold execCsrr at h
  rw [Host.Outcome.next.injEq] at h
  subst h
  cases csrOf n with
  | none => exact .raised illegalTrap .illegal
  | some c => exact effect_of_scalar _ s rd _ rfl

/-- Two answers of one outcome are one. -/
theorem next_unique {o : Host.Outcome State Fault Refusal} {a b : State} (h : o = .next b) (g : o = .next a) :
    b = a := by
  rw [g] at h
  exact (Host.Outcome.next.inj h).symm

/-- What an instruction can do. -/
theorem exec_effect (i : Instr) (s t : State) (h : exec i s = .next t) : InstrEffect i s t := by
  cases i with
  | halt => obtain rfl := next_unique h rfl; exact .halted rfl
  | csrr rd n => exact effect_of_csrr s rd n t h
  | csrw n rs1 => exact effect_of_csrw s n rs1 t h
  | add rd a b => obtain rfl := next_unique h rfl; exact .scalar rd _ _ rfl (fun _ => rfl)
  | sub rd a b => obtain rfl := next_unique h rfl; exact .scalar rd _ _ rfl (fun _ => rfl)
  | mul rd a b => obtain rfl := next_unique h rfl; exact .scalar rd _ _ rfl (fun _ => rfl)
  | div rd a b =>
    obtain rfl := next_unique h rfl
    refine effect_of_checked _ s _ _ (fun t ht => ?_) (fun _ => .scalar rd _ _ rfl (fun _ => rfl))
    unfold divisorTrap at ht
    split at ht
    · cases ht
      exact .divByZero
    · cases ht
  | addi rd a z => obtain rfl := next_unique h rfl; exact .scalar rd _ _ rfl (fun _ => rfl)
  | valscale rd a b => obtain rfl := next_unique h rfl; exact .scalar rd _ _ rfl (fun _ => rfl)
  | lw rd a z =>
    obtain rfl := next_unique h rfl
    exact effect_of_checked _ s _ _ (fun t ht => instrTrap_of_loadTrap 4 _ t (by decide) ht)
      (fun _ => effect_of_scalar _ s rd _ rfl)
  | sw rt a z =>
    obtain rfl := next_unique h rfl
    exact effect_of_checked _ s _ _ (fun t ht => instrTrap_of_storeTrap 4 _ t (by decide) ht)
      (fun hn => .storeWord rt a z rfl ((accessTrap_eq_none_iff _ _ _ _ _).1 hn).2)
  | vld vd a z =>
    obtain rfl := next_unique h rfl
    exact effect_of_checked _ s _ _ (fun t ht => instrTrap_of_loadTrap 32 _ t (by decide) ht)
      (fun _ => effect_of_vector _ s vd _ rfl)
  | vst vt a z =>
    obtain rfl := next_unique h rfl
    exact effect_of_checked _ s _ _ (fun t ht => instrTrap_of_storeTrap 32 _ t (by decide) ht)
      (fun hn => .storeVector vt a z rfl ((accessTrap_eq_none_iff _ _ _ _ _).1 hn).2)
  | beq a b off => obtain rfl := next_unique h rfl; exact effect_of_branch _ s _ off
  | bne a b off => obtain rfl := next_unique h rfl; exact effect_of_branch _ s _ off
  | blt a b off => obtain rfl := next_unique h rfl; exact effect_of_branch _ s _ off
  | j off => obtain rfl := next_unique h rfl; exact .moved _ (.inr ⟨off, rfl⟩)
  | vzero vd => obtain rfl := next_unique h rfl; exact effect_of_vector _ s vd _ rfl
  | vset1 vd a => obtain rfl := next_unique h rfl; exact effect_of_vector _ s vd _ rfl
  | vmin16 vd a b => obtain rfl := next_unique h rfl; exact effect_of_vector _ s vd _ rfl
  | vmax16 vd a b => obtain rfl := next_unique h rfl; exact effect_of_vector _ s vd _ rfl
  | vmullo16 vd a b => obtain rfl := next_unique h rfl; exact effect_of_vector _ s vd _ rfl
  | vmadd16 vd a b => obtain rfl := next_unique h rfl; exact .vector vd _ _ rfl (fun _ => rfl)
  | vadd32 vd a b => obtain rfl := next_unique h rfl; exact .vector vd _ _ rfl (fun _ => rfl)
  | vhsum32 rd a => obtain rfl := next_unique h rfl; exact .scalar rd _ _ rfl (fun _ => rfl)
  | kpolicy rd a b c =>
    obtain rfl := next_unique h rfl
    exact effect_of_checked _ s _ _ (fun t ht => instrTrap_of_kernelTrap _ _ _ _ t ht)
      (fun _ => .scalar rd _ _ rfl (fun _ => rfl))
  | kvalue rd a b c d =>
    obtain rfl := next_unique h rfl
    refine effect_of_checked _ s _ _ (fun t ht => instrTrap_of_kernelTrap _ _ _ _ t ht) (fun _ => ?_)
    simp only [State.writeScaled, flagOverflow_flagOverflow]
    exact .scalar rd _ _ rfl (fun _ => rfl)

/-! ## The engine's turn, the host's turn, a step -/

/-- The fetch check as R78 writes it. -/
theorem fetchable_iff (pc : Word) : fetchable pc = true ↔ pc.toNat % 4 = 0 ∧ pc.toNat + 4 ≤ 4096 := by
  simp [fetchable, Config.imemSize]

/-- What the engine's turn can be (R320, R345). -/
inductive EngineEffect (s : State) : State → Prop where
  | idle (hr : s.run = false) : EngineEffect s s
  | fetchFault (hr : s.run = true) (hf : fetchable s.pc = false) :
      EngineEffect s (s.raise ⟨.fetchFault, s.pc⟩ 0#32)
  | illegal (hr : s.run = true) (hf : fetchable s.pc = true) (e : Illegal)
      (hd : decode (fetchedWord s) = .error e) : EngineEffect s (s.raise illegalTrap (fetchedWord s))
  | executed (hr : s.run = true) (hf : fetchable s.pc = true) (i : Instr) (hd : decode (fetchedWord s) = .ok i)
      (t : State) (h : exec i s = .next t) : EngineEffect s t

/-- What the engine's turn can do. -/
theorem engineTurn_effect (s t : State) (h : engineTurn s = .next t) : EngineEffect s t := by
  unfold engineTurn at h
  split at h
  · rename_i hr
    unfold engineStep at h
    split at h
    · rename_i hf
      split at h
      · rename_i i hd
        exact .executed hr hf i hd t h
      · rename_i e hd
        obtain rfl := next_unique h rfl
        exact .illegal hr hf e hd
    · rename_i hf
      obtain rfl := next_unique h rfl
      exact .fetchFault hr (by simpa using hf)
  · rename_i hr
    obtain rfl := next_unique h rfl
    exact .idle (by simpa using hr)

/-- What a transaction can do to the state, apart from its response (R350 to R357). -/
inductive HostEffect (x : HostTx) (s : State) : State → Prop where
  /-- It reads, or is answered ERR, and changes nothing. -/
  | unchanged : HostEffect x s s
  | wrDmem (a : Nat) (b : Byte) (hx : x = .wrDmem a b) (hr : s.run = false) (ha : a < Config.dmemSize) :
      HostEffect x s (s.storeBytes a (fun _ => b) 1)
  | wrImem (a : Nat) (w : Word) (hx : x = .wrImem a w) (hr : s.run = false) (ha : a + 4 ≤ Config.imemSize) :
      HostEffect x s (s.storeInstr a w)
  | wrX (r : XReg) (w : Word) (hx : x = .wrX r.val w) (hr : s.run = false) : HostEffect x s (s.writeX r w)
  | wrV (r : VReg) (u : VWord) (hx : x = .wrV r.val u) (hr : s.run = false) : HostEffect x s (s.writeV r u)
  | wrStatus (w : Word) (hx : x = .wrCsr 0x000 w) (hr : s.run = false) : HostEffect x s (s.writeStatus w)
  | wrKlen (w : Word) (hx : x = .wrCsr 0x010 w) (hr : s.run = false) : HostEffect x s (s.setKlen w)
  | start (p : Word) (hx : x = .start p) (hr : s.run = false) : HostEffect x s (s.start p)
  | stop (hx : x = .stop) : HostEffect x s s.stop
  | reset (hx : x = .reset) : HostEffect x s s.hostReset

/-- While the engine is stopped, a transaction that needs it stopped is served. -/
theorem whenStopped_of_stopped (s : State) (r : HostReply × State) (h : s.run = false) : s.whenStopped r = r := by
  simp [State.whenStopped, h]

/-- While the engine runs, a transaction that needs it stopped is turned away. -/
theorem whenStopped_of_running (s : State) (r : HostReply × State) (h : s.run = true) :
    s.whenStopped r = (.err, s) := by
  simp [State.whenStopped, h]

/-- A transaction refused while the engine runs does something only when it is stopped. -/
theorem whenStopped_effect (x : HostTx) (s : State) (r : HostReply × State) (h : s.run = false → HostEffect x s r.2) :
    HostEffect x s (s.whenStopped r).2 := by
  unfold State.whenStopped
  split
  · exact .unchanged
  · rename_i hr
    exact h (by simpa using hr)

/-- What a transaction can do. -/
theorem hostAccess_effect (s : State) (x : HostTx) : HostEffect x s (hostAccess s x).2 := by
  cases x with
  | rdDmem a => exact whenStopped_effect _ s _ (fun _ => by split <;> exact .unchanged)
  | wrDmem a b =>
    refine whenStopped_effect _ s _ (fun hr => ?_)
    split
    · rename_i ha
      exact .wrDmem a b rfl hr ha
    · exact .unchanged
  | rdImem a => exact whenStopped_effect _ s _ (fun _ => by split <;> exact .unchanged)
  | wrImem a w =>
    refine whenStopped_effect _ s _ (fun hr => ?_)
    split
    · rename_i ha
      exact .wrImem a w rfl hr ha.2
    · exact .unchanged
  | rdX n => exact whenStopped_effect _ s _ (fun _ => by split <;> exact .unchanged)
  | wrX n w =>
    refine whenStopped_effect _ s _ (fun hr => ?_)
    split
    · rename_i hn
      exact .wrX ⟨n, hn⟩ w rfl hr
    · exact .unchanged
  | rdV n => exact whenStopped_effect _ s _ (fun _ => by split <;> exact .unchanged)
  | wrV n u =>
    refine whenStopped_effect _ s _ (fun hr => ?_)
    split
    · rename_i hn
      exact .wrV ⟨n, hn⟩ u rfl hr
    · exact .unchanged
  | rdCsr n =>
    cases hc : csrOf n with
    | none => simpa only [hostAccess, hc] using .unchanged
    | some c =>
      cases c <;> simp only [hostAccess, hc] <;>
        first | exact .unchanged | exact whenStopped_effect _ s _ (fun _ => .unchanged)
  | wrCsr n w =>
    refine whenStopped_effect _ s _ (fun hr => ?_)
    cases hc : csrOf n with
    | none => exact .unchanged
    | some c =>
      rcases writeCsr_cases s c w with ⟨rfl, hw⟩ | ⟨rfl, hw⟩ | ⟨_, _, hw⟩
      · have := csrOf_eq_status n hc
        subst this
        simp only [Option.bind_some, hw]
        exact .wrStatus w rfl hr
      · have := csrOf_eq_klen n hc
        subst this
        simp only [Option.bind_some, hw]
        exact .wrKlen w rfl hr
      · simp only [Option.bind_some, hw]
        exact .unchanged
  | start p => exact whenStopped_effect _ s _ (fun hr => .start p rfl hr)
  | stop => exact .stop rfl
  | reset => exact .reset rfl

/-- The engine's turn is a step of the state with that turn taken. -/
theorem step_of_engineTurn (s : State) (rest : List Turn) (h : EngineTurn s rest) :
    step s = engineTurn { s with sched := rest } := by
  rcases h with h | ⟨h, rfl⟩
  · simp [step, h]
  · cases s
    simp_all [step]

/-- What a step can do: the engine's turn or one transaction (R359). -/
theorem step_cases (s t : State) (h : step s = .next t) :
    (∃ rest, EngineTurn s rest ∧ EngineEffect { s with sched := rest } t) ∨
    (∃ x rest, s.sched = .host x :: rest ∧ t = ({ s with sched := rest } : State).hostTurn x) := by
  unfold step at h
  split at h
  · rename_i hs
    refine .inl ⟨[], .inr ⟨hs, rfl⟩, engineTurn_effect _ _ ?_⟩
    cases s
    simp_all
  · rename_i rest hs
    exact .inl ⟨rest, .inl hs, engineTurn_effect _ _ h⟩
  · rename_i x rest hs
    exact .inr ⟨x, rest, hs, next_unique h rfl⟩

end Sys2Proof.Machine
end

