-- ==== Sys2Proof/Laws/PerInstr.lean ====
section
/-! SUPPORT. Statements made once per instruction. EncodingMatchesRow: the word the encoder writes has its row's opcode
and its row's must-be-zero bits (R102 to R106, R112, R114). -/

namespace Sys2Proof

/-- A conjunction of concatenations is made part by part. -/
theorem and_append_step {n m : Nat} {x y z : BitVec n} {u v w : BitVec m} (h : x &&& y = z) (g : u &&& v = w) :
    (x ++ u) &&& (y ++ v) = z ++ w := by
  subst h g
  apply BitVec.eq_of_getLsbD_eq
  intro i hi
  simp only [BitVec.getLsbD_and, BitVec.getLsbD_append]
  split <;> rfl

/-- The row of a word is settled by its opcode. -/
theorem rowOf_eq_of_op (w : Word) (op : BitVec 6) (h : opField w = op) :
    rowOf w = opcodeTable.find? (fun r => opField r.pattern == op) := by
  rw [rowOf, h]

end Sys2Proof

namespace Sys2Proof.Laws.EncodingMatchesRow

/-- The encoded word's row in R114 is the instruction's own, and the word passes that row's check. -/
def Statement (i : Instr) : Prop :=
  ∃ r, rowOf (encode i) = some r ∧ r.mnemonic = i.mnemonic ∧ encode i &&& r.mask = r.pattern

theorem halt : Statement (.halt) :=
  ⟨_, rowOf_eq_of_op _ 0x01#6 (opField_formatR _ _ _ _ _ _), rfl,
    and_append_step (y := 0x3F#6 ++ 0xF#4 ++ 0xF#4 ++ 0xF#4 ++ 0xF#4 ++ 0xF#4) (v := 0x3F#6)
      (and_append_step (and_append_step (and_append_step (and_append_step (and_append_step rfl rfl) rfl) rfl) rfl) rfl) rfl⟩

theorem csrr (rd : XReg) (n : Nat) : Statement (.csrr rd n) :=
  ⟨_, rowOf_eq_of_op _ 0x02#6 (opField_formatC _ _ _ _), rfl,
    and_append_step (y := 0x3F#6 ++ 0#4 ++ 0xF#4 ++ 0x3F#6) (v := 0#12)
      (and_append_step (and_append_step (and_append_step rfl BitVec.and_zero) rfl) rfl) BitVec.and_zero⟩

theorem csrw (n : Nat) (rs1 : XReg) : Statement (.csrw n rs1) :=
  ⟨_, rowOf_eq_of_op _ 0x03#6 (opField_formatC _ _ _ _), rfl,
    and_append_step (y := 0x3F#6 ++ 0xF#4 ++ 0#4 ++ 0x3F#6) (v := 0#12)
      (and_append_step (and_append_step (and_append_step rfl rfl) BitVec.and_zero) rfl) BitVec.and_zero⟩

theorem add (rd : XReg) (rs1 : XReg) (rs2 : XReg) : Statement (.add rd rs1 rs2) :=
  ⟨_, rowOf_eq_of_op _ 0x08#6 (opField_formatR _ _ _ _ _ _), rfl,
    and_append_step (y := 0x3F#6 ++ 0#4 ++ 0#4 ++ 0#4 ++ 0xF#4 ++ 0xF#4) (v := 0x3F#6)
      (and_append_step (and_append_step (and_append_step (and_append_step (and_append_step rfl BitVec.and_zero) BitVec.and_zero) BitVec.and_zero) rfl) rfl) rfl⟩

theorem sub (rd : XReg) (rs1 : XReg) (rs2 : XReg) : Statement (.sub rd rs1 rs2) :=
  ⟨_, rowOf_eq_of_op _ 0x09#6 (opField_formatR _ _ _ _ _ _), rfl,
    and_append_step (y := 0x3F#6 ++ 0#4 ++ 0#4 ++ 0#4 ++ 0xF#4 ++ 0xF#4) (v := 0x3F#6)
      (and_append_step (and_append_step (and_append_step (and_append_step (and_append_step rfl BitVec.and_zero) BitVec.and_zero) BitVec.and_zero) rfl) rfl) rfl⟩

theorem mul (rd : XReg) (rs1 : XReg) (rs2 : XReg) : Statement (.mul rd rs1 rs2) :=
  ⟨_, rowOf_eq_of_op _ 0x0A#6 (opField_formatR _ _ _ _ _ _), rfl,
    and_append_step (y := 0x3F#6 ++ 0#4 ++ 0#4 ++ 0#4 ++ 0xF#4 ++ 0xF#4) (v := 0x3F#6)
      (and_append_step (and_append_step (and_append_step (and_append_step (and_append_step rfl BitVec.and_zero) BitVec.and_zero) BitVec.and_zero) rfl) rfl) rfl⟩

theorem div (rd : XReg) (rs1 : XReg) (rs2 : XReg) : Statement (.div rd rs1 rs2) :=
  ⟨_, rowOf_eq_of_op _ 0x0B#6 (opField_formatR _ _ _ _ _ _), rfl,
    and_append_step (y := 0x3F#6 ++ 0#4 ++ 0#4 ++ 0#4 ++ 0xF#4 ++ 0xF#4) (v := 0x3F#6)
      (and_append_step (and_append_step (and_append_step (and_append_step (and_append_step rfl BitVec.and_zero) BitVec.and_zero) BitVec.and_zero) rfl) rfl) rfl⟩

theorem addi (rd : XReg) (rs1 : XReg) (imm : Int) : Statement (.addi rd rs1 imm) :=
  ⟨_, rowOf_eq_of_op _ 0x0C#6 (opField_formatI _ _ _ _), rfl,
    and_append_step (y := 0x3F#6 ++ 0#4 ++ 0#4) (v := 0#18)
      (and_append_step (and_append_step rfl BitVec.and_zero) BitVec.and_zero) BitVec.and_zero⟩

theorem valscale (rd : XReg) (rs1 : XReg) (rs2 : XReg) : Statement (.valscale rd rs1 rs2) :=
  ⟨_, rowOf_eq_of_op _ 0x0D#6 (opField_formatR _ _ _ _ _ _), rfl,
    and_append_step (y := 0x3F#6 ++ 0#4 ++ 0#4 ++ 0#4 ++ 0xF#4 ++ 0xF#4) (v := 0x3F#6)
      (and_append_step (and_append_step (and_append_step (and_append_step (and_append_step rfl BitVec.and_zero) BitVec.and_zero) BitVec.and_zero) rfl) rfl) rfl⟩

theorem lw (rd : XReg) (rs1 : XReg) (imm : Int) : Statement (.lw rd rs1 imm) :=
  ⟨_, rowOf_eq_of_op _ 0x10#6 (opField_formatI _ _ _ _), rfl,
    and_append_step (y := 0x3F#6 ++ 0#4 ++ 0#4) (v := 0#18)
      (and_append_step (and_append_step rfl BitVec.and_zero) BitVec.and_zero) BitVec.and_zero⟩

theorem sw (rt : XReg) (rs1 : XReg) (imm : Int) : Statement (.sw rt rs1 imm) :=
  ⟨_, rowOf_eq_of_op _ 0x11#6 (opField_formatI _ _ _ _), rfl,
    and_append_step (y := 0x3F#6 ++ 0#4 ++ 0#4) (v := 0#18)
      (and_append_step (and_append_step rfl BitVec.and_zero) BitVec.and_zero) BitVec.and_zero⟩

theorem vld (vd : VReg) (rs1 : XReg) (imm : Int) : Statement (.vld vd rs1 imm) :=
  ⟨_, rowOf_eq_of_op _ 0x12#6 (opField_formatI _ _ _ _), rfl,
    and_append_step (y := 0x3F#6 ++ 0#4 ++ 0#4) (v := 0#18)
      (and_append_step (and_append_step rfl BitVec.and_zero) BitVec.and_zero) BitVec.and_zero⟩

theorem vst (vt : VReg) (rs1 : XReg) (imm : Int) : Statement (.vst vt rs1 imm) :=
  ⟨_, rowOf_eq_of_op _ 0x13#6 (opField_formatI _ _ _ _), rfl,
    and_append_step (y := 0x3F#6 ++ 0#4 ++ 0#4) (v := 0#18)
      (and_append_step (and_append_step rfl BitVec.and_zero) BitVec.and_zero) BitVec.and_zero⟩

theorem beq (rs1 : XReg) (rs2 : XReg) (off : Int) : Statement (.beq rs1 rs2 off) :=
  ⟨_, rowOf_eq_of_op _ 0x18#6 (opField_formatI _ _ _ _), rfl,
    and_append_step (y := 0x3F#6 ++ 0#4 ++ 0#4) (v := 0#18)
      (and_append_step (and_append_step rfl BitVec.and_zero) BitVec.and_zero) BitVec.and_zero⟩

theorem bne (rs1 : XReg) (rs2 : XReg) (off : Int) : Statement (.bne rs1 rs2 off) :=
  ⟨_, rowOf_eq_of_op _ 0x19#6 (opField_formatI _ _ _ _), rfl,
    and_append_step (y := 0x3F#6 ++ 0#4 ++ 0#4) (v := 0#18)
      (and_append_step (and_append_step rfl BitVec.and_zero) BitVec.and_zero) BitVec.and_zero⟩

theorem blt (rs1 : XReg) (rs2 : XReg) (off : Int) : Statement (.blt rs1 rs2 off) :=
  ⟨_, rowOf_eq_of_op _ 0x1A#6 (opField_formatI _ _ _ _), rfl,
    and_append_step (y := 0x3F#6 ++ 0#4 ++ 0#4) (v := 0#18)
      (and_append_step (and_append_step rfl BitVec.and_zero) BitVec.and_zero) BitVec.and_zero⟩

theorem j (off : Int) : Statement (.j off) :=
  ⟨_, rowOf_eq_of_op _ 0x1B#6 (opField_formatJ _ _), rfl,
    and_append_step (y := 0x3F#6) (v := 0#26) rfl BitVec.and_zero⟩

theorem vzero (vd : VReg) : Statement (.vzero vd) :=
  ⟨_, rowOf_eq_of_op _ 0x20#6 (opField_formatR _ _ _ _ _ _), rfl,
    and_append_step (y := 0x3F#6 ++ 0#4 ++ 0xF#4 ++ 0xF#4 ++ 0xF#4 ++ 0xF#4) (v := 0x3F#6)
      (and_append_step (and_append_step (and_append_step (and_append_step (and_append_step rfl BitVec.and_zero) rfl) rfl) rfl) rfl) rfl⟩

theorem vset1 (vd : VReg) (rs1 : XReg) : Statement (.vset1 vd rs1) :=
  ⟨_, rowOf_eq_of_op _ 0x21#6 (opField_formatR _ _ _ _ _ _), rfl,
    and_append_step (y := 0x3F#6 ++ 0#4 ++ 0#4 ++ 0xF#4 ++ 0xF#4 ++ 0xF#4) (v := 0x3F#6)
      (and_append_step (and_append_step (and_append_step (and_append_step (and_append_step rfl BitVec.and_zero) BitVec.and_zero) rfl) rfl) rfl) rfl⟩

theorem vmin16 (vd : VReg) (vs1 : VReg) (vs2 : VReg) : Statement (.vmin16 vd vs1 vs2) :=
  ⟨_, rowOf_eq_of_op _ 0x22#6 (opField_formatR _ _ _ _ _ _), rfl,
    and_append_step (y := 0x3F#6 ++ 0#4 ++ 0#4 ++ 0#4 ++ 0xF#4 ++ 0xF#4) (v := 0x3F#6)
      (and_append_step (and_append_step (and_append_step (and_append_step (and_append_step rfl BitVec.and_zero) BitVec.and_zero) BitVec.and_zero) rfl) rfl) rfl⟩

theorem vmax16 (vd : VReg) (vs1 : VReg) (vs2 : VReg) : Statement (.vmax16 vd vs1 vs2) :=
  ⟨_, rowOf_eq_of_op _ 0x23#6 (opField_formatR _ _ _ _ _ _), rfl,
    and_append_step (y := 0x3F#6 ++ 0#4 ++ 0#4 ++ 0#4 ++ 0xF#4 ++ 0xF#4) (v := 0x3F#6)
      (and_append_step (and_append_step (and_append_step (and_append_step (and_append_step rfl BitVec.and_zero) BitVec.and_zero) BitVec.and_zero) rfl) rfl) rfl⟩

theorem vmullo16 (vd : VReg) (vs1 : VReg) (vs2 : VReg) : Statement (.vmullo16 vd vs1 vs2) :=
  ⟨_, rowOf_eq_of_op _ 0x24#6 (opField_formatR _ _ _ _ _ _), rfl,
    and_append_step (y := 0x3F#6 ++ 0#4 ++ 0#4 ++ 0#4 ++ 0xF#4 ++ 0xF#4) (v := 0x3F#6)
      (and_append_step (and_append_step (and_append_step (and_append_step (and_append_step rfl BitVec.and_zero) BitVec.and_zero) BitVec.and_zero) rfl) rfl) rfl⟩

theorem vmadd16 (vd : VReg) (vs1 : VReg) (vs2 : VReg) : Statement (.vmadd16 vd vs1 vs2) :=
  ⟨_, rowOf_eq_of_op _ 0x25#6 (opField_formatR _ _ _ _ _ _), rfl,
    and_append_step (y := 0x3F#6 ++ 0#4 ++ 0#4 ++ 0#4 ++ 0xF#4 ++ 0xF#4) (v := 0x3F#6)
      (and_append_step (and_append_step (and_append_step (and_append_step (and_append_step rfl BitVec.and_zero) BitVec.and_zero) BitVec.and_zero) rfl) rfl) rfl⟩

theorem vadd32 (vd : VReg) (vs1 : VReg) (vs2 : VReg) : Statement (.vadd32 vd vs1 vs2) :=
  ⟨_, rowOf_eq_of_op _ 0x26#6 (opField_formatR _ _ _ _ _ _), rfl,
    and_append_step (y := 0x3F#6 ++ 0#4 ++ 0#4 ++ 0#4 ++ 0xF#4 ++ 0xF#4) (v := 0x3F#6)
      (and_append_step (and_append_step (and_append_step (and_append_step (and_append_step rfl BitVec.and_zero) BitVec.and_zero) BitVec.and_zero) rfl) rfl) rfl⟩

theorem vhsum32 (rd : XReg) (vs1 : VReg) : Statement (.vhsum32 rd vs1) :=
  ⟨_, rowOf_eq_of_op _ 0x27#6 (opField_formatR _ _ _ _ _ _), rfl,
    and_append_step (y := 0x3F#6 ++ 0#4 ++ 0#4 ++ 0xF#4 ++ 0xF#4 ++ 0xF#4) (v := 0x3F#6)
      (and_append_step (and_append_step (and_append_step (and_append_step (and_append_step rfl BitVec.and_zero) BitVec.and_zero) rfl) rfl) rfl) rfl⟩

theorem kpolicy (rd : XReg) (rs1 : XReg) (rs2 : XReg) (rs3 : XReg) : Statement (.kpolicy rd rs1 rs2 rs3) :=
  ⟨_, rowOf_eq_of_op _ 0x30#6 (opField_formatR _ _ _ _ _ _), rfl,
    and_append_step (y := 0x3F#6 ++ 0#4 ++ 0#4 ++ 0#4 ++ 0#4 ++ 0xF#4) (v := 0x3F#6)
      (and_append_step (and_append_step (and_append_step (and_append_step (and_append_step rfl BitVec.and_zero) BitVec.and_zero) BitVec.and_zero) BitVec.and_zero) rfl) rfl⟩

theorem kvalue (rd : XReg) (rs1 : XReg) (rs2 : XReg) (rs3 : XReg) (rs4 : XReg) : Statement (.kvalue rd rs1 rs2 rs3 rs4) :=
  ⟨_, rowOf_eq_of_op _ 0x31#6 (opField_formatR _ _ _ _ _ _), rfl,
    and_append_step (y := 0x3F#6 ++ 0#4 ++ 0#4 ++ 0#4 ++ 0#4 ++ 0#4) (v := 0x3F#6)
      (and_append_step (and_append_step (and_append_step (and_append_step (and_append_step rfl BitVec.and_zero) BitVec.and_zero) BitVec.and_zero) BitVec.and_zero) BitVec.and_zero) rfl⟩

end Sys2Proof.Laws.EncodingMatchesRow
end

