-- ==== Sys2Proof/Laws/Results.lean ====
section
/-! SUPPORT. What the vector operations, the final scaling and the kernel sums are, element by element, and what a
branch and a placed word do. -/

namespace Sys2Proof.Machine

/-! ## Ranges -/

theorem toInt_word_range (w : Word) : -2147483648 ≤ w.toInt ∧ w.toInt ≤ 2147483647 := by
  have h1 := w.toInt_lt
  have h2 := w.le_toInt
  norm_num at *
  omega

theorem toInt_half_range (w : Half) : -32768 ≤ w.toInt ∧ w.toInt ≤ 32767 := by
  have h1 := w.toInt_lt
  have h2 := w.le_toInt
  norm_num at *
  omega

/-- A value that fits int32 is not changed by wrapping. -/
theorem bmod_of_fits32 (z : Int) (h : -2147483648 ≤ z ∧ z ≤ 2147483647) : z.bmod 4294967296 = z := by
  apply Int.bmod_eq_of_le <;> omega

/-- A value that fits int16 is not changed by truncation to 16 bits. -/
theorem bmod_of_fits16 (z : Int) (h : -32768 ≤ z ∧ z ≤ 32767) : z.bmod 65536 = z := by
  apply Int.bmod_eq_of_le <;> omega

/-! ## Wrapping -/

theorem wrap32_add (a b : Int) : wrap32 (a + b) = wrap32 a + wrap32 b := by simp [wrap32, BitVec.ofInt_add]

theorem wrap32_toInt (w : Word) : wrap32 w.toInt = w := by simp [wrap32]

/-! ## Elements of results (R142 to R148, R203) -/

theorem e16_broadcast16 (w : Word) (k : Nat) (h : k < 16) : e16 (broadcast16 w) k = w.extractLsb' 0 16 :=
  e16_ofE16 _ k h

theorem toInt_e16_minVector (a b : VWord) (k : Nat) (h : k < 16) :
    (e16 (minVector a b) k).toInt = min (e16 a k).toInt (e16 b k).toInt := by
  have ha := toInt_half_range (e16 a k)
  have hb := toInt_half_range (e16 b k)
  rw [minVector, e16_ofE16 _ k h, BitVec.toInt_ofInt]
  exact bmod_of_fits16 _ (by omega)

theorem toInt_e16_maxVector (a b : VWord) (k : Nat) (h : k < 16) :
    (e16 (maxVector a b) k).toInt = max (e16 a k).toInt (e16 b k).toInt := by
  have ha := toInt_half_range (e16 a k)
  have hb := toInt_half_range (e16 b k)
  rw [maxVector, e16_ofE16 _ k h, BitVec.toInt_ofInt]
  exact bmod_of_fits16 _ (by omega)

theorem toInt_e16_mulloVector (a b : VWord) (k : Nat) (h : k < 16) :
    (e16 (mulloVector a b) k).toInt = ((e16 a k).toInt * (e16 b k).toInt).bmod 65536 := by
  rw [mulloVector, e16_ofE16 _ k h, lo16Bits, BitVec.toInt_ofInt]

theorem toInt_e16_clipVector (u : VWord) (k : Nat) (h : k < 16) :
    (e16 (clipVector u) k).toInt = clip (e16 u k).toInt := by
  have h0 : e16 0#256 k = 0#16 := by simp [e16]
  have h1 : e16 (broadcast16 (BitVec.ofInt 32 Config.qa)) k = 255#16 := by
    rw [e16_broadcast16 _ k h]
    decide
  rw [clipVector, toInt_e16_minVector _ _ k h, toInt_e16_maxVector _ _ k h, h0, h1]
  rfl

theorem e32_maddVector (a b : VWord) (j : Nat) (h : j < 8) : e32 (maddVector a b) j = wrap32 (maddExact a b j) :=
  e32_wrapLanes _ j h

theorem e32_addVector (a b : VWord) (j : Nat) (h : j < 8) : e32 (addVector a b) j = e32 a j + e32 b j := by
  rw [addVector, e32_wrapLanes _ j h, addExact, wrap32_add, wrap32_toInt, wrap32_toInt]

/-- VHSUM32 is the sum of the lanes mod 2^32 (R148). -/
theorem hsum_eq_lanes (a : VWord) :
    hsum a = e32 a 0 + e32 a 1 + e32 a 2 + e32 a 3 + e32 a 4 + e32 a 5 + e32 a 6 + e32 a 7 := by
  simp only [hsum, hsumExact, Config.ne32, sumTo, wrap32_add, wrap32_toInt]
  simp [wrap32]

/-! ## Kernel sums (R182, R202) -/

/-- The elements `2L` bytes into a buffer are its elements from `L` on (R180). -/
theorem element_half (s : State) (bw len i : Nat) : s.element (bw + 2 * len) i = s.element bw (len + i) := by
  unfold State.element
  congr 1
  omega

/-- KPOLICY's exact sum over the buffers' elements. -/
theorem policySum_eq (s : State) (len bu bt bw : Nat) :
    s.policySum len bu bt bw =
      (Finset.range len).sum (fun i =>
        (bufferElement s bu i * bufferElement s bw i).bmod 65536 * bufferElement s bt i) +
      (Finset.range len).sum (fun i =>
        (bufferElement s bt i * bufferElement s bw (len + i)).bmod 65536 * bufferElement s bu i) := by
  simp only [State.policySum, sumTo_eq_sum]
  unfold State.policyUsTerm State.policyThemTerm
  simp only [element_half]
  simp only [lo16_eq_bmod, element_eq_bufferElement]

/-- KVALUE's exact sum over the clipped elements. -/
theorem valueSum_eq (s : State) (len bu bt bw : Nat) :
    s.valueSum len bu bt bw =
      (Finset.range len).sum (fun i => min (max (bufferElement s bu i) 0) 255 *
        (min (max (bufferElement s bu i) 0) 255 * bufferElement s bw i).bmod 65536) +
      (Finset.range len).sum (fun i => min (max (bufferElement s bt i) 0) 255 *
        (min (max (bufferElement s bt i) 0) 255 * bufferElement s bw (len + i)).bmod 65536) := by
  simp only [State.valueSum, sumTo_eq_sum]
  unfold State.valueTerm
  simp only [element_half]
  simp only [lo16_eq_bmod, element_eq_bufferElement, clip, Config.qa]

/-- The next state of KPOLICY when its checks pass. -/
theorem execKpolicy_ready (s : State) (rd a b c : XReg)
    (h : KernelReady s.klen.toNat (s.readX a).toNat (s.readX b).toNat (s.readX c).toNat) :
    execKpolicy rd a b c s = .next (s.writeExact rd
      (s.policySum s.klen.toNat (s.readX a).toNat (s.readX b).toNat (s.readX c).toNat)) := by
  simp only [execKpolicy, (kernelTrap_eq_none_iff _ _ _ _).2 h, checked_none]

/-- The next state of KVALUE when its checks pass. -/
theorem execKvalue_ready (s : State) (rd a b c d : XReg)
    (h : KernelReady s.klen.toNat (s.readX a).toNat (s.readX b).toNat (s.readX c).toNat) :
    execKvalue rd a b c d s = .next
      ((s.flagOverflow (!fits32 (s.valueSum s.klen.toNat (s.readX a).toNat (s.readX b).toNat (s.readX c).toNat))).writeScaled
        rd (wrap32 (s.valueSum s.klen.toNat (s.readX a).toNat (s.readX b).toNat (s.readX c).toNat))
        (lowHalf (s.readX d))) := by
  simp only [execKvalue, (kernelTrap_eq_none_iff _ _ _ _).2 h, checked_none]

/-! ## Placed words -/

/-- A word stored in instruction memory is fetched back (R74, R352). -/
theorem ifetch_storeInstr (s : State) (a : Nat) (w : Word) : (s.storeInstr a w).ifetch a = w := by
  have hb : ∀ k, k < 4 → (s.storeInstr a w).imemByte (a + k) = w.extractLsb' (8 * k) 8 := by
    intro k hk
    rw [imemByte_storeInstr, if_pos (by omega), Nat.add_sub_cancel_left]
    rfl
  have h : (s.storeInstr a w).ifetch a = wordOfBytes (w.extractLsb' (8 * 0) 8) (w.extractLsb' (8 * 1) 8)
      (w.extractLsb' (8 * 2) 8) (w.extractLsb' (8 * 3) 8) := by
    rw [State.ifetch, ← hb 0 (by omega), ← hb 1 (by omega), ← hb 2 (by omega), ← hb 3 (by omega)]
    rfl
  rw [h]
  unfold wordOfBytes
  apply BitVec.eq_of_getLsbD_eq
  intro i hi
  simp only [BitVec.getLsbD_append, BitVec.getLsbD_extractLsb']
  by_cases h0 : i < 8
  · simp [h0]
  · by_cases h1 : i < 16
    · simp [h0, show i - 8 < 8 by omega, show 8 + (i - 8) = i by omega]
    · by_cases h2 : i < 24
      · simp [h0, show ¬ i - 8 < 8 by omega, show i - 8 - 8 < 8 by omega, show 16 + (i - 8 - 8) = i by omega]
      · simp [h0, show ¬ i - 8 < 8 by omega, show ¬ i - 8 - 8 < 8 by omega, show i - 8 - 8 - 8 < 8 by omega,
          show 24 + (i - 8 - 8 - 8) = i by omega]

end Sys2Proof.Machine
end

