-- ==== Sys2Proof/Machine/Assembler.lean ====
section
/-! DEFINITION. The assembly language (spec/30_encoding.md R117 to R120): from the lines of a program to its words.
It is no part of the machine's step. -/

namespace Sys2Proof.Asm

/-! ## Errors -/

/-- Why a line is rejected. A rejected line gives no word: nothing is truncated (R119). -/
inductive AsmError where
  /-- No instruction, pseudo-instruction or directive has this name. -/
  | unknownMnemonic
  /-- The operands are not those of the instruction, in its order (R117). -/
  | badOperands
  /-- No line carries this label. -/
  | undefinedLabel
  /-- Two lines carry one label (the spec is silent; DESIGN CHOICE, log entry 8). -/
  | duplicateLabel
  /-- An immediate, an offset, a CSR number or a `.word` value does not fit its field (R118, R119). -/
  | outOfRange
  deriving DecidableEq, Repr

/-! ## Words of a line -/

/-- The characters between words. -/
def isSpace (c : Char) : Bool := c == ' ' || c == '\t' || c == '\r' || c == '\n'

/-- A text without the spaces at its ends. -/
def trim (t : List Char) : List Char := ((t.dropWhile isSpace).reverse.dropWhile isSpace).reverse

/-- The part before the first `c`, and the part after it when there is one. -/
def cut (c : Char) : List Char → List Char × Option (List Char)
  | [] => ([], none)
  | d :: t => if d == c then ([], some t) else (d :: (cut c t).1, (cut c t).2)

/-- The parts of a text between commas, at most `n`. -/
def splitCommas : Nat → List Char → List (List Char)
  | 0, _ => []
  | n + 1, t =>
    match cut ',' t with
    | (a, none) => [trim a]
    | (a, some rest) => trim a :: splitCommas n rest

/-- The value of a digit in a base up to 16. -/
def digit (base : Nat) (c : Char) : Option Nat :=
  let n := c.toNat
  let d := if 48 ≤ n ∧ n ≤ 57 then n - 48 else if 65 ≤ n ∧ n ≤ 70 then n - 55
    else if 97 ≤ n ∧ n ≤ 102 then n - 87 else 16
  if d < base then some d else none

/-- The number a nonempty text of digits stands for. -/
def digits (base : Nat) : List Char → Option Nat
  | [] => none
  | t => t.foldl (fun acc c => acc.bind (fun a => (digit base c).map (fun d => a * base + d))) (some 0)

/-- A number: decimal, `0x` hexadecimal, or `-` and a decimal (R119). -/
def number : List Char → Option Int
  | '0' :: 'x' :: t => (digits 16 t).map Int.ofNat
  | '-' :: t => (digits 10 t).map (fun n => -Int.ofNat n)
  | t => (digits 10 t).map Int.ofNat

/-- The register numbers as they are written (R118). -/
def registerNumbers : List (List Char) :=
  ["0", "1", "2", "3", "4", "5", "6", "7", "8", "9", "10", "11", "12", "13", "14", "15"].map String.toList

/-- The register a text after its `x` or `v` names (R118). -/
def registerNumber (t : List Char) : Option (Fin 16) :=
  (List.finRange 16).find? (fun r => registerNumbers[r.val]? == some t)

/-- The control registers' names and numbers (R38, R118). -/
def csrNames : List (String × Nat) :=
  [("STATUS", 0x000), ("CAUSE", 0x001), ("FPC", 0x002), ("FADDR", 0x003), ("FINST", 0x004), ("KLEN", 0x010),
    ("QA", 0x020), ("QB", 0x021), ("ESCALE", 0x022), ("VLENB", 0x023), ("IMPLID", 0x030), ("DMEMSZ", 0x031),
    ("IMEMSZ", 0x032)]

/-! ## Operands -/

/-- An operand as it is written. -/
inductive Operand where
  | x (r : XReg)
  | v (r : VReg)
  | imm (z : Int)
  /-- `imm(xs)`, `imm` being 0 when omitted (R117). -/
  | mem (z : Int) (base : XReg)
  /-- Any other word: a label or a CSR name. -/
  | name (t : List Char)
  deriving DecidableEq, Repr

/-- A register operand (R118). -/
def register : List Char → Option Operand
  | 'x' :: t => (registerNumber t).map Operand.x
  | 'v' :: t => (registerNumber t).map Operand.v
  | _ => none

/-- A memory operand (R117). -/
def memory (t : List Char) : Option Operand :=
  match cut '(' t with
  | (_, none) => none
  | (z, some rest) =>
    match cut ')' rest with
    | (base, some []) =>
      match (if trim z = [] then some 0 else number (trim z)), register (trim base) with
      | some n, some (.x r) => some (.mem n r)
      | _, _ => none
    | _ => none

/-- An operand: a register, a number, a memory operand, or a name. -/
def operand (t : List Char) : Operand :=
  ((register t).or (((number t).map Operand.imm).or (memory t))).getD (.name t)

/-- The CSR number an operand gives (R118). -/
def csrNumber : Operand → Except AsmError Nat
  | .imm (.ofNat n) => .ok n
  | .name t =>
    match csrNames.find? (fun p => p.1 == String.ofList t) with
    | some p => .ok p.2
    | none => .error .badOperands
  | _ => .error .badOperands

/-- Where the labels are, and where the line's own instruction is. -/
structure Place where
  labels : List (List Char × Nat)
  pc : Nat
  deriving DecidableEq, Repr

/-- The word offset of a branch or jump operand: a number is the offset itself, a label is `(address - pc) / 4`
(R119). -/
def Place.offset (p : Place) : Operand → Except AsmError Int
  | .imm z => .ok z
  | .name t =>
    match p.labels.find? (fun l => l.1 == t) with
    | some l => .ok (((l.2 : Int) - p.pc) / 4)
    | none => .error .undefinedLabel
  | _ => .error .badOperands

/-! ## Instructions -/

/-- The instruction of three scalar registers. -/
def xxx (f : XReg → XReg → XReg → Instr) : List Operand → Except AsmError Instr
  | [.x a, .x b, .x c] => .ok (f a b c)
  | _ => .error .badOperands

/-- The instruction of three vector registers. -/
def vvv (f : VReg → VReg → VReg → Instr) : List Operand → Except AsmError Instr
  | [.v a, .v b, .v c] => .ok (f a b c)
  | _ => .error .badOperands

/-- A word load or store. -/
def xMem (f : XReg → XReg → Int → Instr) : List Operand → Except AsmError Instr
  | [.x a, .mem z b] => .ok (f a b z)
  | _ => .error .badOperands

/-- A vector load or store. -/
def vMem (f : VReg → XReg → Int → Instr) : List Operand → Except AsmError Instr
  | [.v a, .mem z b] => .ok (f a b z)
  | _ => .error .badOperands

/-- A branch on two registers. -/
def xxTarget (p : Place) (f : XReg → XReg → Int → Instr) : List Operand → Except AsmError Instr
  | [.x a, .x b, t] => (p.offset t).map (f a b)
  | _ => .error .badOperands

/-- A branch on one register (R120). -/
def xTarget (p : Place) (f : XReg → Int → Instr) : List Operand → Except AsmError Instr
  | [.x a, t] => (p.offset t).map (f a)
  | _ => .error .badOperands

/-- A jump. -/
def target (p : Place) (f : Int → Instr) : List Operand → Except AsmError Instr
  | [t] => (p.offset t).map f
  | _ => .error .badOperands

/-- What each mnemonic makes of its operands: the 27 instructions of R114 in the operand order of R117, then the
eight pseudo-instructions of R120. -/
def forms (p : Place) : List (String × (List Operand → Except AsmError Instr)) :=
  [ ("HALT", fun | [] => .ok .halt | _ => .error .badOperands),
    ("CSRR", fun | [.x rd, c] => (csrNumber c).map (.csrr rd) | _ => .error .badOperands),
    ("CSRW", fun | [c, .x rs1] => (csrNumber c).map (.csrw · rs1) | _ => .error .badOperands),
    ("ADD", xxx .add), ("SUB", xxx .sub), ("MUL", xxx .mul), ("DIV", xxx .div),
    ("ADDI", fun | [.x rd, .x rs1, .imm z] => .ok (.addi rd rs1 z) | _ => .error .badOperands),
    ("VALSCALE", xxx .valscale),
    ("LW", xMem .lw), ("SW", xMem .sw), ("VLD", vMem .vld), ("VST", vMem .vst),
    ("BEQ", xxTarget p .beq), ("BNE", xxTarget p .bne), ("BLT", xxTarget p .blt), ("J", target p .j),
    ("VZERO", fun | [.v vd] => .ok (.vzero vd) | _ => .error .badOperands),
    ("VSET1", fun | [.v vd, .x rs1] => .ok (.vset1 vd rs1) | _ => .error .badOperands),
    ("VMIN16", vvv .vmin16), ("VMAX16", vvv .vmax16), ("VMULLO16", vvv .vmullo16), ("VMADD16", vvv .vmadd16),
    ("VADD32", vvv .vadd32),
    ("VHSUM32", fun | [.x rd, .v vs1] => .ok (.vhsum32 rd vs1) | _ => .error .badOperands),
    ("KPOLICY", fun | [.x a, .x b, .x c, .x d] => .ok (.kpolicy a b c d) | _ => .error .badOperands),
    ("KVALUE", fun | [.x a, .x b, .x c, .x d, .x e] => .ok (.kvalue a b c d e) | _ => .error .badOperands),
    ("NOP", fun | [] => .ok (.addi 0 0 0) | _ => .error .badOperands),
    ("LI", fun | [.x rd, .imm z] => .ok (.addi rd 0 z) | _ => .error .badOperands),
    ("MV", fun | [.x rd, .x rs1] => .ok (.addi rd rs1 0) | _ => .error .badOperands),
    ("B", target p .j),
    ("BEQZ", xTarget p (fun a => .beq a 0)), ("BNEZ", xTarget p (fun a => .bne a 0)),
    ("BGT", xxTarget p (fun a b => .blt b a)),
    ("VMOV", fun | [.v vd, .v vs] => .ok (.vmax16 vd vs vs) | _ => .error .badOperands) ]

/-! ## Lines and programs -/

/-- A line taken apart: its label, its mnemonic in capitals, its operands (R117). -/
structure Line where
  label : Option (List Char)
  mnemonic : String
  operands : List Operand
  deriving DecidableEq, Repr

/-- The line's parts; the mnemonic is empty when the line has none. -/
def parseLine (text : List Char) : Line :=
  let code := (cut ';' text).1
  let labelled := match cut ':' code with
    | (l, some rest) => (some (trim l), rest)
    | (_, none) => (none, code)
  let body := trim labelled.2
  let mnemonic := body.takeWhile (fun c => !isSpace c)
  let rest := trim (body.drop mnemonic.length)
  { label := labelled.1
    mnemonic := String.ofList (mnemonic.map Char.toUpper)
    operands := if rest = [] then [] else (splitCommas (rest.length + 1) rest).map operand }

/-- The word of a line that has a mnemonic: an instruction whose operands fit their fields, or a `.word` value of
32 bits (R119). -/
def assembleLine (p : Place) (l : Line) : Except AsmError Word :=
  if l.mnemonic = ".WORD" then
    match l.operands with
    | [.imm z] => if -2147483648 ≤ z ∧ z < 4294967296 then .ok (BitVec.ofInt 32 z) else .error .outOfRange
    | _ => .error .badOperands
  else
    match (forms p).find? (fun f => f.1 == l.mnemonic) with
    | none => .error .unknownMnemonic
    | some f =>
      match f.2 l.operands with
      | .error e => .error e
      | .ok i => if i.wellFormed then .ok (encode i) else .error .outOfRange

/-- The labels of the lines and their addresses, the first line at `pc`; none when two lines carry one label. -/
def labelsOf : Nat → List Line → Option (List (List Char × Nat))
  | _, [] => some []
  | pc, l :: rest =>
    match labelsOf (if l.mnemonic = "" then pc else pc + 4) rest with
    | none => none
    | some ls =>
      match l.label with
      | none => some ls
      | some t => if ls.any (fun q => q.1 == t) then none else some ((t, pc) :: ls)

/-- The words of the lines from `pc` on. -/
def assembleFrom (labels : List (List Char × Nat)) : Nat → List Line → Except AsmError (List Word)
  | _, [] => .ok []
  | pc, l :: rest =>
    if l.mnemonic = "" then assembleFrom labels pc rest
    else
      match assembleLine ⟨labels, pc⟩ l, assembleFrom labels (pc + 4) rest with
      | .ok w, .ok ws => .ok (w :: ws)
      | .error e, _ => .error e
      | _, .error e => .error e

/-- The words of a program whose first word lies at address 0, one line of text an entry. -/
def assemble (text : List String) : Except AsmError (List Word) :=
  let lines := text.map (fun t => parseLine t.toList)
  match labelsOf 0 lines with
  | none => .error .duplicateLabel
  | some labels => assembleFrom labels 0 lines

end Sys2Proof.Asm
end

