-- ==== Sys2Proof/Tests/Slice0.lean ====
section
/-! SUPPORT. Tests: expected values are those of spec/95_test_vectors.md (the section named at each group), or are
computed by hand from the rule named; then one witness for each statement that has hypotheses. -/

namespace Sys2Proof.Tests

open Sys2Proof Sys2Proof.Machine

/-! ## Helpers -/

/-- A running engine at pc 0, every register 0, KLEN 16, both memories unwritten. -/
def blank : State where
  x := regs16 (fun _ => 0#32)
  v := regs16 (fun _ => 0#256)
  pc := 0#32
  run := true
  halted := false
  fault := false
  ovf := false
  cause := .none
  fpc := 0#32
  faddr := 0#32
  finst := 0#32
  klen := 16#32
  imem := []
  dmem := []
  epoch := 0
  sched := []
  replies := []

/-- The state one step leaves. -/
def after (s : State) : State :=
  match step s with
  | .next t => t
  | .fault _ => s
  | .refused _ => s

/-- The state after the word `w`, placed at the pc, has run. -/
def ran (s : State) (w : Word) : State := after (s.storeInstr s.pc.toNat w)

/-- `s` stopped, with one host transaction pending. -/
def hosted (s : State) (x : HostTx) : State := { s with run := false, sched := [.host x] }

/-- The vector of these elements, element 0 first. -/
def elements (l : List Int) : VWord := ofE16 (fun k => BitVec.ofInt 16 (l.getD k 0))

/-- The vector of these lanes, lane 0 first. -/
def lanes (l : List Int) : VWord := ofE32 (fun j => BitVec.ofInt 32 (l.getD j 0))

/-- `n` equal int16 elements at `base`, as memory cells. -/
def fill (base : Nat) (z : Int) : Nat → Memory
  | 0 => []
  | n + 1 => fill base z n ++ [(base + 2 * n, (BitVec.ofInt 16 z).extractLsb' 0 8),
      (base + 2 * n + 1, (BitVec.ofInt 16 z).extractLsb' 8 8)]

/-- Kernel data for L = 16 in the layout of spec/95 §2.9: us at 0, them at 0x400, the weights at 0x800, and the base
addresses in x1, x2, x3. -/
def kernel (us them wUs wThem : Int) : State :=
  { (((blank.writeX 2 0x400#32).writeX 3 0x800#32).writeX 11 0x1234#32) with
    dmem := fill 0 us 16 ++ fill 0x400 them 16 ++ fill 0x800 wUs 16 ++ fill 0x820 wThem 16 }

/-! ## WellFormed refuses what no field holds (R108 to R111) -/

theorem test_wf_imm18_below : (Instr.addi 1 2 (-131073)).wellFormed = false := by decide
theorem test_wf_imm18_above : (Instr.lw 1 2 131072).wellFormed = false := by decide
theorem test_wf_imm26_below : (Instr.j (-33554433)).wellFormed = false := by decide
theorem test_wf_imm26_above : (Instr.j 33554432).wellFormed = false := by decide
theorem test_wf_csr_above : (Instr.csrr 1 4096).wellFormed = false := by decide
theorem test_wf_bounds : (Instr.addi 1 2 (-131072)).wellFormed = true ∧ (Instr.sw 1 2 131071).wellFormed = true ∧
    (Instr.j 33554431).wellFormed = true ∧ (Instr.csrw 4095 1).wellFormed = true := by decide

/-! ## Decoding, one word for every constructor (spec/95 §2.10) -/

theorem test_decode_halt : decode 0x04000000#32 = .ok .halt := by decide
theorem test_decode_csrr : decode 0x09400010#32 = .ok (.csrr 5 0x010) := by decide
theorem test_decode_csrw : decode 0x0C140010#32 = .ok (.csrw 0x010 5) := by decide
theorem test_decode_add : decode 0x21D58000#32 = .ok (.add 7 5 6) := by decide
theorem test_decode_sub : decode 0x272AC000#32 = .ok (.sub 12 10 11) := by decide
theorem test_decode_mul : decode 0x29D58000#32 = .ok (.mul 7 5 6) := by decide
theorem test_decode_div : decode 0x2DFB4000#32 = .ok (.div 7 14 13) := by decide
theorem test_decode_addi : decode 0x31980020#32 = .ok (.addi 6 6 32) := by decide
theorem test_decode_valscale : decode 0x36A50000#32 = .ok (.valscale 10 9 4) := by decide
theorem test_decode_lw : decode 0x41440000#32 = .ok (.lw 5 1 0) := by decide
theorem test_decode_sw : decode 0x46800300#32 = .ok (.sw 10 0 0x300) := by decide
theorem test_decode_vld : decode 0x48600000#32 = .ok (.vld 1 8 0) := by decide
theorem test_decode_vst : decode 0x4C000400#32 = .ok (.vst 0 0 0x400) := by decide
theorem test_decode_beq : decode 0x61940002#32 = .ok (.beq 6 5 2) := by decide
theorem test_decode_bne : decode 0x6597FFF1#32 = .ok (.bne 6 5 (-15)) := by decide
theorem test_decode_blt : decode 0x6997FFF1#32 = .ok (.blt 6 5 (-15)) := by decide
theorem test_decode_j : decode 0x6FFFFFFC#32 = .ok (.j (-4)) := by decide
theorem test_decode_vzero : decode 0x80000000#32 = .ok (.vzero 0) := by decide
theorem test_decode_vset1 : decode 0x85F40000#32 = .ok (.vset1 7 13) := by decide
theorem test_decode_vmin16 : decode 0x8845C000#32 = .ok (.vmin16 1 1 7) := by decide
theorem test_decode_vmax16 : decode 0x8C460000#32 = .ok (.vmax16 1 1 8) := by decide
theorem test_decode_vmullo16 : decode 0x9144C000#32 = .ok (.vmullo16 5 1 3) := by decide
theorem test_decode_vmadd16 : decode 0x95548000#32 = .ok (.vmadd16 5 5 2) := by decide
theorem test_decode_vadd32 : decode 0x98014000#32 = .ok (.vadd32 0 0 5) := by decide
theorem test_decode_vhsum32 : decode 0x9E800000#32 = .ok (.vhsum32 10 0) := by decide
theorem test_decode_kpolicy : decode 0xC2C48C00#32 = .ok (.kpolicy 11 1 2 3) := by decide
theorem test_decode_kvalue : decode 0xC7048D00#32 = .ok (.kvalue 12 1 2 3 4) := by decide

/-- A word that the decoder refuses. -/
def illegal (w : Word) : Bool :=
  match decode w with
  | .ok _ => false
  | .error _ => true

/-- The illegal words of spec/95 §2.9 and §2.10: unassigned opcodes and must-be-zero bits. -/
theorem test_illegal_words :
    [0x00000000#32, 0x04000001#32, 0xFC000000#32, 0x22058400#32, 0x09440010#32, 0x0C540010#32, 0x0C003010#32,
      0x2205800F#32, 0x38000000#32, 0x3C000000#32, 0x9E804000#32, 0xC2C48C40#32, 0xC7048D01#32,
      0xFFFFFFFF#32].all illegal = true := by decide

/-- The host's numbering of a word gives the same instruction. -/
theorem test_table_word : decodeTableWord 32 0x09400010 = some (.csrr 5 0x010) ∧ decodeTableWord 32 0 = none := by
  decide

/-! ## One step of each instruction (spec/95 §2.1 to §2.9) -/

theorem test_halt : (ran blank 0x04000000#32).pc = 0#32 ∧ (ran blank 0x04000000#32).statusForHost = 2#32 := by decide

theorem test_csrr_klen : (ran { blank with klen := 512#32 } 0x09400010#32).readX 5 = 512#32 := by decide
theorem test_csrr_unassigned : (ran blank 0x09400005#32).cause = .illegalInstr ∧
    (ran blank 0x09400005#32).finst = 0x09400005#32 := by decide
theorem test_csrw_status : (ran (blank.writeX 5 0xFFFFFFFF#32) 0x0C140000#32).statusForHost = 9#32 := by decide
theorem test_csrw_readonly : (ran blank 0x0C140020#32).statusForHost = 4#32 ∧
    (ran blank 0x0C140020#32).cause = .illegalInstr := by decide

theorem test_add_wraps : (ran ((blank.writeX 5 0x7FFFFFFF#32).writeX 6 1#32) 0x21D58000#32).readX 7 = 0x80000000#32 ∧
    (ran ((blank.writeX 5 0x7FFFFFFF#32).writeX 6 1#32) 0x21D58000#32).ovf = true := by decide
theorem test_add_fits : (ran ((blank.writeX 5 0xFFFFFFFF#32).writeX 6 1#32) 0x21D58000#32).readX 7 = 0#32 ∧
    (ran ((blank.writeX 5 0xFFFFFFFF#32).writeX 6 1#32) 0x21D58000#32).ovf = false := by decide
theorem test_sub_order : ((ran ((blank.writeX 10 5#32).writeX 11 7#32) 0x272AC000#32).readX 12).toInt = -2 := by decide
theorem test_mul_wraps : ((ran ((blank.writeX 5 100000#32).writeX 6 100000#32) 0x29D58000#32).readX 7).toInt =
    1410065408 ∧ (ran ((blank.writeX 5 100000#32).writeX 6 100000#32) 0x29D58000#32).ovf = true := by decide
theorem test_div_truncates : ((ran ((blank.writeX 14 (BitVec.ofInt 32 (-7))).writeX 13 2#32) 0x2DFB4000#32).readX 7).toInt
    = -3 := by decide
theorem test_div_by_zero : (ran (blank.writeX 7 9#32) 0x2DD40000#32).cause = .divByZero ∧
    (ran (blank.writeX 7 9#32) 0x2DD40000#32).readX 7 = 9#32 := by decide
theorem test_addi_lowest : ((ran blank 0x31420000#32).readX 5).toInt = -131072 := by decide
theorem test_addi_x0 : (ran blank 0x30000005#32).readX 0 = 0#32 ∧ (ran blank 0x30000005#32).pc = 4#32 := by decide
theorem test_valscale_wraps : ((ran (blank.writeX 9 0x7FFFFFFF#32) 0x36A50000#32).readX 10).toInt = -56762 ∧
    (ran (blank.writeX 9 0x7FFFFFFF#32) 0x36A50000#32).ovf = true := by decide
theorem test_valscale_bias_low_half :
    ((ran ((blank.writeX 9 (BitVec.ofInt 32 (-40800))).writeX 4 0x00010000#32) 0x36A50000#32).readX 10).toInt = -3 := by
  decide

theorem test_lw_little_endian :
    (ran { (blank.writeX 1 0x100#32) with dmem := [(0x104, 0xFE#8), (0x105, 0xFF#8), (0x106, 0xFF#8), (0x107, 0x7F#8)] }
      0x41C40004#32).readX 7 = 0x7FFFFFFE#32 := by decide
theorem test_lw_misaligned : (ran (blank.writeX 1 0x200#32) 0x41440002#32).cause = .loadMisaligned ∧
    (ran (blank.writeX 1 0x200#32) 0x41440002#32).faddr = 0x202#32 := by decide
theorem test_sw_little_endian : (ran ((blank.writeX 1 0x100#32).writeX 5 0x11223344#32) 0x45440000#32).dmem =
    [(0x100, 0x44#8), (0x101, 0x33#8), (0x102, 0x22#8), (0x103, 0x11#8)] := by decide
theorem test_sw_outside : (ran (blank.writeX 1 0x10000#32) 0x45440000#32).cause = .storeAccess ∧
    (ran (blank.writeX 1 0x10000#32) 0x45440000#32).dmem = [] := by decide
theorem test_vld_misaligned_first : (ran (blank.writeX 1 0xFFF0#32) 0x48440000#32).cause = .loadMisaligned := by decide
theorem test_vld_elements : e16 ((ran { (blank.writeX 1 0xFFFFFFE0#32) with dmem := fill 0 (-2) 16 }
    0x48440020#32).readV 1) 15 = 0xFFFE#16 := by decide +kernel
theorem test_vst_misaligned : (ran blank 0x4C001010#32).cause = .storeMisaligned ∧
    (ran blank 0x4C001010#32).faddr = 0x1010#32 := by decide
theorem test_vst_bytes : (ran (blank.writeV 0 (elements [0x0100, 0x0302])) 0x4C000400#32).dmemByte 0x403 = 3#8 ∧
    (ran (blank.writeV 0 (elements [0x0100, 0x0302])) 0x4C000400#32).dmemByte 0x41F = 0#8 := by decide +kernel

theorem test_beq_taken : (ran { blank with pc := 4#32 } 0x61940003#32).pc = 0x10#32 := by decide
theorem test_bne_not_taken : (ran { blank with pc := 4#32 } 0x65940003#32).pc = 8#32 := by decide
theorem test_blt_signed : (ran ({ blank with pc := 4#32 }.writeX 6 0x80000000#32) 0x69940003#32).pc = 0x10#32 := by decide
theorem test_blt_order : (ran ({ blank with pc := 4#32 }.writeX 5 0x80000000#32) 0x69940003#32).pc = 8#32 := by decide
theorem test_j_wraps : (ran blank 0x6FFFFFFF#32).pc = 0xFFFFFFFC#32 := by decide

theorem test_vzero : (ran (blank.writeV 1 (elements [1, 2])) 0x80400000#32).readV 1 = 0#256 := by decide
theorem test_vset1_low_half : e32 ((ran (blank.writeX 9 0x12348000#32) 0x86240000#32).readV 8) 7 = 0x80008000#32 := by
  decide
theorem test_vmin16_signed :
    (ran ((blank.writeV 1 (elements [-32768, 256, 100])).writeV 2 (elements [0, 255, -32768])) 0x88C48000#32).readV 3 =
      elements [-32768, 255, -32768] := by decide +kernel
theorem test_vmax16_signed :
    (ran ((blank.writeV 1 (elements [-32768, 256, 100])).writeV 2 (elements [0, 255, -32768])) 0x8CC48000#32).readV 3 =
      elements [0, 256, 100] := by decide +kernel
theorem test_vmullo16_truncates :
    (ran ((blank.writeV 1 (elements [300, 182, -32768, 255])).writeV 2 (elements [300, 182, -1, 200]))
      0x90C48000#32).readV 3 = elements [24464, -32412, -32768, -14536] := by decide +kernel
theorem test_vmadd16_overflow :
    (ran ((blank.writeV 1 (elements [1, 2, -32768, -32768])).writeV 2 (elements [3, 4, -32768, -32768]))
      0x94C48000#32).readV 3 = lanes [11, -2147483648] ∧
    (ran ((blank.writeV 1 (elements [1, 2, -32768, -32768])).writeV 2 (elements [3, 4, -32768, -32768]))
      0x94C48000#32).ovf = true := by decide +kernel
theorem test_vadd32_carries :
    (ran ((blank.writeV 1 (lanes [5, -7, 65535])).writeV 2 (lanes [1, 2, 1])) 0x98C48000#32).readV 3 =
      lanes [6, -5, 65536] ∧
    (ran ((blank.writeV 1 (lanes [5, -7, 65535])).writeV 2 (lanes [1, 2, 1])) 0x98C48000#32).ovf = false := by
  decide +kernel
theorem test_vhsum32_exact_sum :
    ((ran (blank.writeV 0 (lanes [2147483647, 1, -1])) 0x9E800000#32).readX 10).toInt = 2147483647 ∧
    (ran (blank.writeV 0 (lanes [2147483647, 1, -1])) 0x9E800000#32).ovf = false := by decide +kernel
theorem test_vhsum32_wraps :
    ((ran (blank.writeV 0 (lanes [2147483647, 1])) 0x9E800000#32).readX 10).toInt = -2147483648 ∧
    (ran (blank.writeV 0 (lanes [2147483647, 1])) 0x9E800000#32).ovf = true := by decide +kernel

/-- The row that tells the pairings apart: only the cross pairing gives 256 (spec/95 §2.3). -/
theorem test_kpolicy_cross_pairing : (ran (kernel 1 2 3 5) 0xC2C48C00#32).readX 11 = 256#32 := by decide +kernel
theorem test_kpolicy_wraps : (ran (kernel (-32768) (-32768) 1 1) 0xC2C48C00#32).readX 11 = 0#32 ∧
    (ran (kernel (-32768) (-32768) 1 1) 0xC2C48C00#32).ovf = true := by decide +kernel
/-- The squared term and the clip (spec/95 §2.4). -/
theorem test_kvalue_squared : ((ran (kernel 255 0 200 7) 0xC7048D00#32).readX 12).toInt = -5700 := by decide +kernel
theorem test_kvalue_clips : ((ran ((kernel 1000 10 1 1).writeX 4 0#32) 0xC7048D00#32).readX 12).toInt = 100 := by
  decide +kernel

/-! ## Faults in their order, and the fetch (spec/95 §2.9) -/

theorem test_klen_first : (ran { (kernel 0 0 0 0) with klen := 24#32 } 0xC2C48C00#32).cause = .klenInvalid ∧
    (ran { (kernel 0 0 0 0) with klen := 24#32 } 0xC2C48C00#32).faddr = 24#32 ∧
    (ran { (kernel 0 0 0 0) with klen := 24#32 } 0xC2C48C00#32).readX 11 = 0x1234#32 := by decide +kernel
theorem test_them_before_weights :
    (ran (((kernel 0 0 0 0).writeX 2 0x402#32).writeX 3 0x801#32) 0xC7048D00#32).faddr = 0x402#32 := by decide +kernel
theorem test_weights_to_the_end :
    (ran { ((kernel 0 0 0 0).writeX 3 0xF820#32) with klen := 512#32 } 0xC2C48C00#32).cause = .loadAccess := by
  decide +kernel
theorem test_fetch_misaligned : (after { blank with pc := 2#32 }).cause = .fetchFault ∧
    (after { blank with pc := 2#32 }).faddr = 2#32 ∧ (after { blank with pc := 2#32 }).finst = 0#32 := by decide
theorem test_fetch_outside : (after { blank with pc := 0x1000#32 }).cause = .fetchFault := by decide
theorem test_illegal_word : (ran blank 0x04000001#32).cause = .illegalInstr ∧
    (ran blank 0x04000001#32).finst = 0x04000001#32 := by decide

/-! ## Host port (spec/95 §2.11) -/

theorem test_host_last_byte : (after (hosted blank (.wrDmem 0xFFFF 0xAB#8))).dmem = [(0xFFFF, 0xAB#8)] ∧
    (after (hosted blank (.wrDmem 0x10000 0#8))).replies = [.err] := by decide
theorem test_host_last_word : (after (hosted blank (.wrImem 0xFFC 0x04000000#32))).replies = [.ok] ∧
    (after (hosted blank (.wrImem 2 0#32))).replies = [.err] := by decide
theorem test_host_x0 : (after (hosted blank (.wrX 0 5#32))).readX 0 = 0#32 ∧
    (after (hosted blank (.wrX 16 5#32))).replies = [.err] := by decide
theorem test_host_status : (after (hosted blank (.wrCsr 0 0xF#32))).statusForHost = 8#32 ∧
    (after (hosted blank (.rdCsr 5))).replies = [.err] := by decide
theorem test_host_running : (after { blank with sched := [.host (.rdX 10)] }).replies = [.err] ∧
    (after { blank with sched := [.host (.rdCsr 0)] }).replies = [.okWord 1#32] := by decide
theorem test_host_start : (after { (hosted blank (.start 0#32)) with fault := true, ovf := true }).statusForHost = 1#32 := by
  decide
theorem test_host_reset : (after { blank with ovf := true, sched := [.host .reset] }).statusForHost = 0#32 ∧
    (after { blank with ovf := true, sched := [.host .reset] }).klen = 512#32 := by decide

/-! ## From reset (R352, R354) -/

/-- The first word placed after reset is run by the next step. -/
theorem test_reset_halt : (after (State.reset.withFetchWord 32 0x04000000)).statusForHost = 2#32 := by decide

/-! ## The assembly language (R116 to R120; spec/95 §3) -/

theorem test_assemble : Asm.assemble
    ["  CSRR x5, KLEN  ; 2L comes next", "start: add x5,x5, x5", "VLD v1, (x8)", "SW x10, 0x300(x0)", "BLT x6, x5, start",
      "B start", ".word 0xFFFFFFFF"] =
    .ok [0x09400010#32, 0x21554000#32, 0x48600000#32, 0x46800300#32, 0x6997FFFD#32, 0x6FFFFFFC#32, 0xFFFFFFFF#32] := by
  decide +kernel
theorem test_assemble_pseudo : Asm.assemble ["NOP", "LI x6, -1", "MV x1, x2", "BEQZ x3, 2", "BNEZ x3, 2", "BGT x1, x2, -1",
    "VMOV v1, v2"] =
    .ok [0x30000000#32, 0x3183FFFF#32, 0x30480000#32, 0x60C00002#32, 0x64C00002#32, 0x6887FFFF#32, 0x8C488000#32] := by
  decide +kernel
theorem test_assemble_rejects : Asm.assemble ["ADDI x1, x0, 131072"] = .error .outOfRange ∧
    Asm.assemble ["LW x1, 4(v0)"] = .error .badOperands ∧ Asm.assemble ["J away"] = .error .undefinedLabel := by
  decide +kernel

/-! ## Witnesses: a concrete state and operands meeting every hypothesis of each statement that has any -/

/-- The two wellFormed statements, at the ends of a signed field. -/
theorem witness_wellFormed : (Instr.addi 15 15 131071).wellFormed = true ∧ (Instr.j (-33554432)).wellFormed = true := by
  decide
theorem witness_EncodeOfDecode : decode 0x3143FFFF#32 = .ok (.addi 5 0 (-1)) := by decide

/-- A running engine with HALT at the last word of instruction memory. -/
def lastWord : State := { blank with pc := 0xFFC#32, imem := [(0xFFC, 0#8), (0xFFD, 0#8), (0xFFE, 0#8), (0xFFF, 4#8)] }

theorem witness_StepRunsDecodedInstruction : FetchReady lastWord [] ∧ decode (fetchedWord lastWord) = .ok .halt :=
  ⟨⟨.inr ⟨rfl, rfl⟩, rfl, by decide, by decide⟩, by decide⟩
theorem witness_FetchAndDecodeFault_outside : EngineTurn { blank with pc := 0x1000#32 } [] ∧ blank.run = true ∧
    (0x1000#32 : Word).toNat + 4 > 4096 := ⟨.inr ⟨rfl, rfl⟩, rfl, by decide⟩
theorem witness_FetchAndDecodeFault_misaligned : EngineTurn { blank with pc := 0xFFD#32 } [] ∧ blank.run = true ∧
    (0xFFD#32 : Word).toNat % 4 ≠ 0 := ⟨.inr ⟨rfl, rfl⟩, rfl, by decide⟩

/-- A running engine with an illegal word, that of HALT with bit 0 set, at the last word of instruction memory. -/
def lastIllegal : State :=
  { blank with pc := 0xFFC#32, imem := [(0xFFC, 1#8), (0xFFD, 0#8), (0xFFE, 0#8), (0xFFF, 4#8)] }

theorem witness_FetchAndDecodeFault_illegal : EngineTurn lastIllegal [] ∧ lastIllegal.run = true ∧
    lastIllegal.pc.toNat % 4 = 0 ∧ lastIllegal.pc.toNat + 4 ≤ 4096 ∧ illegal (fetchedWord lastIllegal) = true :=
  ⟨.inr ⟨rfl, rfl⟩, rfl, by decide, by decide, by decide⟩
theorem witness_IdleEngineKeepsItsState : EngineTurn State.reset [] ∧ State.reset.run = false := ⟨.inr ⟨rfl, rfl⟩, rfl⟩
theorem witness_PlacedWordIsRunNext : decode (BitVec.ofNat 32 (0x04000000 % 2 ^ 32)) = .ok .halt := by decide

/-- A faulted engine: KPOLICY at pc 8 found KLEN = 24. -/
def faulted : State :=
  { blank with pc := 8#32, run := false, fault := true, cause := .klenInvalid, fpc := 8#32, faddr := 24#32,
               finst := 0xC2C48C00#32, klen := 24#32, dmem := [(0, 1#8), (65535, 2#8)], imem := [(4095, 3#8)],
               sched := [.host (.start 0#32)] }

theorem witness_EveryStepKeepsTheInvariant : faulted.Inv ∧ step faulted = .next (after faulted) :=
  ⟨{ oneStatus := ⟨.inl rfl, .inl rfl, .inl rfl⟩
     xZero := rfl
     dmemWf := by decide
     imemWf := by decide
     causeIffFault := by decide
     recordClear := by decide
     faultPc := by decide
     fetchRecord := by decide
     zeroRecord := by decide
     klenRecord := by decide
     misalignedRecord := by decide
     wordRecord := fun _ _ _ => ⟨.kpolicy 11 1 2 3, by decide⟩ }, rfl⟩
theorem witness_FaultRecordStandsUntilStartOrReset :
    State.Inv { faulted with sched := [.host .stop] } ∧ faulted.fault = true ∧
    step { faulted with sched := [.host .stop] } = .next (after { faulted with sched := [.host .stop] }) ∧
    (∀ p rest, ([.host .stop] : List Turn) ≠ .host (.start p) :: rest) ∧
    (∀ rest, ([.host .stop] : List Turn) ≠ .host .reset :: rest) :=
  ⟨{ oneStatus := ⟨.inl rfl, .inl rfl, .inl rfl⟩
     xZero := rfl
     dmemWf := by decide
     imemWf := by decide
     causeIffFault := by decide
     recordClear := by decide
     faultPc := by decide
     fetchRecord := by decide
     zeroRecord := by decide
     klenRecord := by decide
     misalignedRecord := by decide
     wordRecord := fun _ _ _ => ⟨.kpolicy 11 1 2 3, by decide⟩ }, rfl, rfl, by simp, by simp⟩
theorem witness_PcStaysAligned : faulted.pc.toNat % 4 = 0 ∧
    (∀ p rest, faulted.sched = .host (.start p) :: rest → p.toNat % 4 = 0) ∧ step faulted = .next (after faulted) :=
  ⟨by decide, fun p rest h => by cases h; decide, rfl⟩
theorem witness_EngineNeverWritesImem : engineTurn lastWord = .next { lastWord with run := false, halted := true } :=
  rfl
theorem witness_StatusBitsMoveOnlyAsRuled : AtMostOneStatus lastWord ∧ step lastWord = .next (after lastWord) :=
  ⟨⟨.inr rfl, .inr rfl, .inl rfl⟩, rfl⟩
/-- CSRW STATUS clearing a set OVF, and ADD setting a clear one. -/
theorem witness_OvfMovesOnlyAsRuled :
    (∃ t, exec (.csrw 0x000 0) { blank with ovf := true } = .next t ∧ t.ovf = false) ∧
    (∃ t, exec (.add 7 5 6) ((blank.writeX 5 0x7FFFFFFF#32).writeX 6 1#32) = .next t ∧ t.ovf = true) :=
  ⟨⟨_, rfl, by decide⟩, ⟨_, rfl, by decide⟩⟩
theorem witness_KlenMovesOnlyByCsrw : ∃ t, exec (.csrw 0x010 5) (blank.writeX 5 0xFFFFFFFF#32) = .next t ∧
    t.klen = 0xFFFFFFFF#32 := ⟨_, rfl, by decide⟩
theorem witness_RegistersMoveOnlyAsDestinations :
    (∃ t, exec (.addi 15 0 5) blank = .next t ∧ t.readX 15 ≠ blank.readX 15) ∧
    (∃ t, exec (.vset1 15 5) (blank.writeX 5 1#32) = .next t ∧ t.readV 15 ≠ (blank.writeX 5 1#32).readV 15) :=
  ⟨⟨_, rfl, by decide⟩, ⟨_, rfl, by decide +kernel⟩⟩
/-- SW changing the last byte of data memory. -/
theorem witness_OnlyStoresChangeDmem :
    ∃ t, exec (.sw 5 0 0xFFFC) { (blank.writeX 5 0x01000000#32) with dmem := [(0xFFFF, 9#8)] } = .next t ∧
      t.dmemByte 0xFFFF = 1#8 := ⟨_, rfl, by decide⟩
theorem witness_FaultsArePrecise : EngineTurn { blank with pc := 2#32 } [] ∧ blank.run = true ∧ blank.fault = false ∧
    step { blank with pc := 2#32 } = .next (after { blank with pc := 2#32 }) ∧
    (after { blank with pc := 2#32 }).fault = true := ⟨.inr ⟨rfl, rfl⟩, rfl, rfl, rfl, by decide⟩

theorem witness_DivTruncatesTowardZeroOrFaults : (blank.writeX 2 0xFFFFFFFF#32).readX 2 ≠ 0#32 ∧ blank.readX 2 = 0#32 := by
  decide
/-- LW and SW: the highest word; the last address, misaligned and out of range; the first aligned one out of range. -/
theorem witness_Lw_Sw :
    (((0xFFFC#32 : Word).toNat : Int) = (((blank.readX 1).toNat : Int) + 0xFFFC) % 4294967296 ∧
      (0xFFFC#32 : Word).toNat % 4 = 0 ∧ (0xFFFC#32 : Word).toNat + 4 ≤ 65536) ∧
    (((0xFFFF#32 : Word).toNat : Int) = (((blank.readX 1).toNat : Int) + 0xFFFF) % 4294967296 ∧
      (0xFFFF#32 : Word).toNat % 4 ≠ 0) ∧
    (((0x10000#32 : Word).toNat : Int) = (((blank.readX 1).toNat : Int) + 0x10000) % 4294967296 ∧
      (0x10000#32 : Word).toNat % 4 = 0 ∧ (0x10000#32 : Word).toNat + 4 > 65536) := by decide
/-- VLD and VST: the lowest vector, its address wrapped past the top; then as for LW and SW. -/
theorem witness_Vld_Vst :
    (((0#32 : Word).toNat : Int) = ((((blank.writeX 1 0xFFFFFFE0#32).readX 1).toNat : Int) + 32) % 4294967296 ∧
      (0#32 : Word).toNat % 32 = 0 ∧ (0#32 : Word).toNat + 32 ≤ 65536) ∧
    (((0xFFF0#32 : Word).toNat : Int) = (((blank.readX 1).toNat : Int) + 0xFFF0) % 4294967296 ∧
      (0xFFF0#32 : Word).toNat % 32 ≠ 0) ∧
    (((0x10000#32 : Word).toNat : Int) = (((blank.readX 1).toNat : Int) + 0x10000) % 4294967296 ∧
      (0x10000#32 : Word).toNat % 32 = 0 ∧ (0x10000#32 : Word).toNat + 32 > 65536) := by decide
theorem witness_WordAfterVectorStoreIsLane : (5 : XReg) ≠ 0 ∧ 7 < 8 ∧
    ((blank.writeX 1 0xFFE0#32).readX 1).toNat % 32 = 0 ∧ ((blank.writeX 1 0xFFE0#32).readX 1).toNat + 32 ≤ 65536 := by
  decide

/-- R325's codes, each read by the host from CAUSE of a stopped engine that recorded that cause. -/
theorem test_cause_codes : ([.none, .illegalInstr, .fetchFault, .loadMisaligned, .loadAccess, .storeMisaligned,
    .storeAccess, .klenInvalid, .divByZero] : List Cause).map (fun c => State.hostReadCsr { blank with cause := c } .cause) =
    [0#32, 1#32, 2#32, 3#32, 4#32, 5#32, 6#32, 7#32, 8#32] := by decide
/-- The first and the last entry of the map (no cause is recorded), and the number after the last. -/
theorem witness_CsrrReadsTheMapOrFaults : (∀ p ∈ [((0x000, 1#32) : Nat × Word), (0x032, 4096#32)],
    p ∈ [(0x000, if blank.ovf then 9#32 else 1#32), (0x001, 0#32), (0x002, blank.fpc),
      (0x003, blank.faddr), (0x004, blank.finst), (0x010, blank.klen), (0x020, 255#32), (0x021, 64#32),
      (0x022, 400#32), (0x023, 32#32), (0x030, 0x414F4D01#32), (0x031, 65536#32), (0x032, 4096#32)]) ∧
    0x033 ∉ [0x000, 0x001, 0x002, 0x003, 0x004, 0x010, 0x020, 0x021, 0x022, 0x023, 0x030, 0x031, 0x032] := by decide
theorem witness_CsrwWritesStatusAndKlenOrFaults : 0x001 ≠ 0x000 ∧ 0x001 ≠ 0x010 := by decide

theorem witness_AccumulationIsTheExactSumInAnyOrder :
    [(elements [1, 2], elements [3, 4]), (elements [5], elements [6])].Perm
      [(elements [5], elements [6]), (elements [1, 2], elements [3, 4])] := List.Perm.swap _ _ _

/-- L = 16 with zero accumulators and other weights; the weights end at the end of data memory. -/
def zeros : State :=
  { ((blank.writeX 2 0x400#32).writeX 3 0xFFC0#32) with
    dmem := fill 0 0 16 ++ fill 0x400 0 16 ++ fill 0xFFC0 32767 32 }

theorem witness_kernels : (11 : XReg) ≠ 0 ∧
    KernelReady zeros.klen.toNat (zeros.readX 1).toNat (zeros.readX 2).toNat (zeros.readX 3).toNat :=
  ⟨by decide, ⟨by decide, by decide, by decide, by decide, by decide, by decide, by decide, by decide⟩⟩
theorem witness_ZeroAccumulatorsGiveTheBiasAlone : ∀ i, i < zeros.klen.toNat →
    bufferElement zeros (zeros.readX 1).toNat i = 0 ∧ bufferElement zeros (zeros.readX 2).toNat i = 0 := by
  decide +kernel
/-- Zero accumulators in one shared buffer at 0x20, the same weights at 0x40, all in other registers than in `zeros`. -/
def moved (z : Int) : State :=
  { (((blank.writeX 4 0x20#32).writeX 5 0x40#32).writeX 6 0xFFFF0000#32) with dmem := fill 0x20 z 16 ++ fill 0x40 32767 32 }

theorem witness_KpolicyDependsOnlyOnItsBuffers : (moved 0).klen = zeros.klen ∧ (moved 0).ovf = zeros.ovf ∧
    KernelReady (moved 0).klen.toNat ((moved 0).readX 4).toNat ((moved 0).readX 4).toNat ((moved 0).readX 5).toNat ∧
    (∀ i, i < zeros.klen.toNat →
      bufferElement (moved 0) ((moved 0).readX 4).toNat i = bufferElement zeros (zeros.readX 1).toNat i ∧
      bufferElement (moved 0) ((moved 0).readX 4).toNat i = bufferElement zeros (zeros.readX 2).toNat i) ∧
    (∀ i, i < 2 * zeros.klen.toNat →
      bufferElement (moved 0) ((moved 0).readX 5).toNat i = bufferElement zeros (zeros.readX 3).toNat i) :=
  ⟨rfl, rfl, ⟨by decide, by decide, by decide, by decide, by decide, by decide, by decide, by decide⟩,
    by decide +kernel, by decide +kernel⟩
/-- The elements -1 clip to those of `zeros`; the bias registers agree in their low halves alone. -/
theorem witness_KvalueDependsOnlyOnClippedElements : (moved (-1)).klen = zeros.klen ∧ (moved (-1)).ovf = zeros.ovf ∧
    ((moved (-1)).readX 6).extractLsb' 0 16 = (zeros.readX 4).extractLsb' 0 16 ∧
    KernelReady (moved (-1)).klen.toNat ((moved (-1)).readX 4).toNat ((moved (-1)).readX 4).toNat
      ((moved (-1)).readX 5).toNat ∧
    (∀ i, i < zeros.klen.toNat →
      min (max (bufferElement (moved (-1)) ((moved (-1)).readX 4).toNat i) 0) 255 =
        min (max (bufferElement zeros (zeros.readX 1).toNat i) 0) 255 ∧
      min (max (bufferElement (moved (-1)) ((moved (-1)).readX 4).toNat i) 0) 255 =
        min (max (bufferElement zeros (zeros.readX 2).toNat i) 0) 255) ∧
    (∀ i, i < 2 * zeros.klen.toNat →
      bufferElement (moved (-1)) ((moved (-1)).readX 5).toNat i = bufferElement zeros (zeros.readX 3).toNat i) :=
  ⟨rfl, rfl, by decide, ⟨by decide, by decide, by decide, by decide, by decide, by decide, by decide, by decide⟩,
    by decide +kernel, by decide +kernel⟩
theorem witness_KernelChecksInOrder : Instr.kpolicy 11 1 2 3 = .kpolicy 11 1 2 3 ∨
    Instr.kpolicy 11 1 2 3 = .kvalue 11 1 2 3 4 := by decide

theorem witness_ResetLeavesTheRuledState : { blank with sched := [.host .reset] }.sched = [.host .reset] := rfl
theorem witness_HostIsTurnedAwayWhileRunning :
    { blank with sched := [.host (.start 0#32)] }.sched = [.host (.start 0#32)] ∧ blank.run = true ∧
    HostTx.start 0#32 ≠ .stop ∧ HostTx.start 0#32 ≠ .reset ∧ HostTx.start 0#32 ≠ .rdCsr 0x000 ∧
    { blank with sched := [.host (.rdCsr 0)] }.sched = [.host (.rdCsr 0)] := by decide
/-- A stopped engine with a bad pc0, and a running one. -/
theorem witness_StartBeginsARun : (hosted blank (.start 2#32)).sched = [.host (.start 2#32)] ∧
    (hosted blank (.start 2#32)).run = false ∧ blank.run = true := by decide
theorem witness_StopClearsRunOnly : { blank with sched := [.host .stop] }.sched = [.host .stop] := by decide
/-- Any transaction of a stopped engine; the addresses are the last inside and the first outside. -/
theorem witness_host_accesses : (hosted blank (.wrDmem 0xFFFF 1#8)).run = false ∧
    (hosted blank (.wrDmem 0xFFFF 1#8)).sched = [.host (.wrDmem 0xFFFF 1#8)] ∧
    (hosted blank (.rdDmem 0x10000)).sched = [.host (.rdDmem 0x10000)] ∧
    (hosted blank (.wrImem 0xFFC 1#32)).sched = [.host (.wrImem 0xFFC 1#32)] ∧
    (hosted blank (.rdImem 0x1000)).sched = [.host (.rdImem 0x1000)] ∧
    (hosted blank (.wrX 15 1#32)).sched = [.host (.wrX 15 1#32)] ∧
    (hosted blank (.wrV 16 1#256)).sched = [.host (.wrV 16 1#256)] ∧
    (hosted blank (.wrCsr 0x010 1#32)).sched = [.host (.wrCsr 0x010 1#32)] ∧
    (hosted blank (.rdX 15)).sched = [.host (.rdX 15)] ∧ (hosted blank (.rdV 16)).sched = [.host (.rdV 16)] ∧
    (hosted blank (.rdCsr 0x032)).sched = [.host (.rdCsr 0x032)] := by decide

end Sys2Proof.Tests
end

section
/-! PROOFS. The family of spec/10_state.md: the state after reset, the invariant every step keeps, and by which turns
the pc, STATUS, OVF, KLEN, the registers and the control registers move. Each rests on the inversion lemmas
`exec_effect`, `engineTurn_effect`, `hostAccess_effect` and `step_cases`. -/

namespace Sys2Proof.Machine

/-! ## RUN, HALTED, FAULT and the fault record -/

/-- RUN, HALTED, FAULT and the fault record are as before. -/
structure SameRecord (s t : State) : Prop where
  run : t.run = s.run
  halted : t.halted = s.halted
  fault : t.fault = s.fault
  cause : t.cause = s.cause
  fpc : t.fpc = s.fpc
  faddr : t.faddr = s.faddr
  finst : t.finst = s.finst

/-- Stated through the field lemmas of `storeVector`: its 32 writes are too long to be unfolded. -/
theorem storeVector_sameRecord (s : State) (a : Nat) (u : VWord) : SameRecord s (s.storeVector a u).advance := by
  constructor <;> simp

/-- An instruction raises, halts, or leaves RUN, HALTED, FAULT and the fault record alone. -/
theorem InstrEffect.record {i : Instr} {s t : State} (h : InstrEffect i s t) :
    (∃ trap, InstrTrap trap ∧ t = s.raise trap (encode i)) ∨ (i = .halt ∧ t = s.halt) ∨ SameRecord s t := by
  cases h with
  | raised trap ht => exact .inl ⟨trap, ht, rfl⟩
  | halted hi => exact .inr (.inl ⟨hi, rfl⟩)
  | storeVector => exact .inr (.inr (storeVector_sameRecord _ _ _))
  | _ => exact .inr (.inr ⟨rfl, rfl, rfl, rfl, rfl, rfl, rfl⟩)

/-- A transaction starts, stops or resets the engine, or leaves RUN, HALTED, FAULT, the fault record and the pc
alone. -/
theorem HostEffect.record {x : HostTx} {s t : State} (h : HostEffect x s t) :
    (∃ p, x = .start p ∧ s.run = false ∧ t = s.start p) ∨ (x = .stop ∧ t = s.stop) ∨
    (x = .reset ∧ t = s.hostReset) ∨ (SameRecord s t ∧ t.pc = s.pc) := by
  cases h with
  | start p hx hr => exact .inl ⟨p, hx, hr, rfl⟩
  | stop hx => exact .inr (.inl ⟨hx, rfl⟩)
  | reset hx => exact .inr (.inr (.inl ⟨hx, rfl⟩))
  | _ => exact .inr (.inr (.inr ⟨⟨rfl, rfl, rfl, rfl, rfl, rfl, rfl⟩, rfl⟩))

/-! ## The memories and x0's slot -/

/-- x0's slot holds 0 and both memories are canonical inside their spaces (R31, R70, R71). -/
structure StorageWf (s : State) : Prop where
  xZero : s.x[0] = 0#32
  dmem : s.dmem.wf Config.dmemSize
  imem : s.imem.wf Config.imemSize

theorem State.Inv.storage {s : State} (h : s.Inv) : StorageWf s := ⟨h.xZero, h.dmemWf, h.imemWf⟩

/-- A register write never reaches x0's slot (R31). -/
theorem writeX_xZero (s : State) (r : XReg) (w : Word) : (s.writeX r w).x[0] = s.x[0] := by
  by_cases hr : r = 0
  · simp [hr]
  · have : r.val ≠ 0 := fun h => hr (Fin.ext h)
    simp [hr, this]

theorem InstrEffect.storageWf {i : Instr} {s t : State} (h : InstrEffect i s t) (hs : StorageWf s) : StorageWf t := by
  obtain ⟨hx, hd, hi⟩ := hs
  cases h with
  | scalar rd w => exact ⟨(writeX_xZero _ rd w).trans hx, hd, hi⟩
  | storeWord rt rs1 imm _ hin => exact ⟨hx, writeBytes_wf _ _ 4 _ _ hin hd, hi⟩
  | storeVector vt rs1 imm _ hin =>
    refine ⟨by simpa using hx, ?_, by simpa using hi⟩
    rw [State.advance_dmem, State.storeVector_dmem]
    exact writeBytes_wf _ _ Config.vlenb _ _ hin hd
  | _ => exact ⟨hx, hd, hi⟩

theorem resetAt_storageWf (epoch : Nat) (sched : List Turn) (replies : List HostReply) :
    StorageWf (State.resetAt epoch sched replies) :=
  ⟨rfl, empty_wf _, empty_wf _⟩

theorem HostEffect.storageWf {x : HostTx} {s t : State} (h : HostEffect x s t) (hs : StorageWf s) : StorageWf t := by
  obtain ⟨hx, hd, hi⟩ := hs
  cases h with
  | wrDmem a b _ _ ha => exact ⟨hx, writeBytes_wf _ a 1 _ _ ha hd, hi⟩
  | wrImem a w _ _ ha => exact ⟨hx, hd, writeBytes_wf _ a 4 _ _ ha hi⟩
  | wrX r w => exact ⟨(writeX_xZero _ r w).trans hx, hd, hi⟩
  | reset => exact resetAt_storageWf _ _ _
  | _ => exact ⟨hx, hd, hi⟩

/-! ## What a fault records (R325) -/

/-- The encoded word passes its own row's check, instruction by instruction. -/
theorem encode_matches_row (i : Instr) : Laws.EncodingMatchesRow.Statement i := by
  cases i with
  | halt => exact Laws.EncodingMatchesRow.halt
  | csrr rd n => exact Laws.EncodingMatchesRow.csrr rd n
  | csrw n a => exact Laws.EncodingMatchesRow.csrw n a
  | add rd a b => exact Laws.EncodingMatchesRow.add rd a b
  | sub rd a b => exact Laws.EncodingMatchesRow.sub rd a b
  | mul rd a b => exact Laws.EncodingMatchesRow.mul rd a b
  | div rd a b => exact Laws.EncodingMatchesRow.div rd a b
  | addi rd a z => exact Laws.EncodingMatchesRow.addi rd a z
  | valscale rd a b => exact Laws.EncodingMatchesRow.valscale rd a b
  | lw rd a z => exact Laws.EncodingMatchesRow.lw rd a z
  | sw rt a z => exact Laws.EncodingMatchesRow.sw rt a z
  | vld vd a z => exact Laws.EncodingMatchesRow.vld vd a z
  | vst vt a z => exact Laws.EncodingMatchesRow.vst vt a z
  | beq a b z => exact Laws.EncodingMatchesRow.beq a b z
  | bne a b z => exact Laws.EncodingMatchesRow.bne a b z
  | blt a b z => exact Laws.EncodingMatchesRow.blt a b z
  | j z => exact Laws.EncodingMatchesRow.j z
  | vzero vd => exact Laws.EncodingMatchesRow.vzero vd
  | vset1 vd a => exact Laws.EncodingMatchesRow.vset1 vd a
  | vmin16 vd a b => exact Laws.EncodingMatchesRow.vmin16 vd a b
  | vmax16 vd a b => exact Laws.EncodingMatchesRow.vmax16 vd a b
  | vmullo16 vd a b => exact Laws.EncodingMatchesRow.vmullo16 vd a b
  | vmadd16 vd a b => exact Laws.EncodingMatchesRow.vmadd16 vd a b
  | vadd32 vd a b => exact Laws.EncodingMatchesRow.vadd32 vd a b
  | vhsum32 rd a => exact Laws.EncodingMatchesRow.vhsum32 rd a
  | kpolicy rd a b c => exact Laws.EncodingMatchesRow.kpolicy rd a b c
  | kvalue rd a b c d => exact Laws.EncodingMatchesRow.kvalue rd a b c d

/-- Every word the encoder writes is legal, whether or not the operands fit their fields. -/
theorem decode_encode_legal (i : Instr) : ∃ j, decode (encode i) = .ok j := by
  obtain ⟨row, hrow, -, hmask⟩ := encode_matches_row i
  exact ⟨row.build (encode i), by simp [decode, hrow, hmask]⟩

/-- The trap and the word of a fault taken at `pc` agree as R325 asks. -/
structure RecordWf (pc : Word) (trap : Trap) (w : Word) : Prop where
  cause : trap.cause ≠ .none
  fetch : trap.cause = .fetchFault → trap.info = pc
  zero : trap.cause = .illegalInstr ∨ trap.cause = .divByZero → trap.info = 0#32
  klen : trap.cause = .klenInvalid → trap.info.toNat = 0 ∨ trap.info.toNat % 16 ≠ 0
  misaligned : trap.cause = .loadMisaligned ∨ trap.cause = .storeMisaligned → trap.info.toNat % 32 ≠ 0
  legal : trap.cause ≠ .fetchFault → trap.cause ≠ .illegalInstr → ∃ i, decode w = .ok i

theorem fetchFault_recordWf (pc w : Word) : RecordWf pc ⟨.fetchFault, pc⟩ w := by
  constructor <;> simp

theorem illegalTrap_recordWf (pc w : Word) : RecordWf pc illegalTrap w := by
  constructor <;> simp [illegalTrap]

/-- What an instruction raises agrees with the word it records, its own. -/
theorem InstrTrap.recordWf {trap : Trap} (h : InstrTrap trap) (pc : Word) (i : Instr) :
    RecordWf pc trap (encode i) := by
  have hlegal := decode_encode_legal i
  cases h with
  | illegal => exact illegalTrap_recordWf pc _
  | _ => constructor <;> simp_all

/-! ## The invariant -/

/-- A step that leaves RUN, HALTED, FAULT and the fault record alone keeps the invariant, if it keeps the storage
well formed and moves no pc under a standing fault. -/
theorem State.Inv.of_sameRecord {s t : State} (h : s.Inv) (hr : SameRecord s t) (hs : StorageWf t)
    (hpc : s.fault = true → t.pc = s.pc) : t.Inv := by
  obtain ⟨hrun, hhalted, hfault, hcause, hfpc, hfaddr, hfinst⟩ := hr
  exact
    { oneStatus := by simpa only [AtMostOneStatus, hrun, hhalted, hfault] using h.oneStatus
      xZero := hs.xZero
      dmemWf := hs.dmem
      imemWf := hs.imem
      causeIffFault := by simpa only [hcause, hfault] using h.causeIffFault
      recordClear := by simpa only [hcause, hfpc, hfaddr, hfinst] using h.recordClear
      faultPc := fun hf => by
        have hsf : s.fault = true := hfault.symm.trans hf
        rw [hfpc, hpc hsf, h.faultPc hsf]
      fetchRecord := by simpa only [hcause, hfaddr, hfpc, hfinst] using h.fetchRecord
      zeroRecord := by simpa only [hcause, hfaddr] using h.zeroRecord
      klenRecord := by simpa only [hcause, hfaddr] using h.klenRecord
      misalignedRecord := by simpa only [hcause, hfaddr] using h.misalignedRecord
      wordRecord := by simpa only [hcause, hfinst] using h.wordRecord }

/-- The turns still to come and the responses are no part of the invariant. -/
theorem State.Inv.set_sched {s : State} (h : s.Inv) (sched : List Turn) : ({ s with sched := sched } : State).Inv :=
  h.of_sameRecord ⟨rfl, rfl, rfl, rfl, rfl, rfl, rfl⟩ ⟨h.xZero, h.dmemWf, h.imemWf⟩ (fun _ => rfl)

theorem State.Inv.set_replies {s : State} (h : s.Inv) (replies : List HostReply) :
    ({ s with replies := replies } : State).Inv :=
  h.of_sameRecord ⟨rfl, rfl, rfl, rfl, rfl, rfl, rfl⟩ ⟨h.xZero, h.dmemWf, h.imemWf⟩ (fun _ => rfl)

/-- With FAULT clear and the record 0, only the status bits and the storage are left to check. -/
theorem State.Inv.of_clear {s : State} (hone : AtMostOneStatus s) (hs : StorageWf s) (hfault : s.fault = false)
    (hcause : s.cause = .none) (hrecord : s.fpc = 0#32 ∧ s.faddr = 0#32 ∧ s.finst = 0#32) : s.Inv where
  oneStatus := hone
  xZero := hs.xZero
  dmemWf := hs.dmem
  imemWf := hs.imem
  causeIffFault := by simp [hfault, hcause]
  recordClear := fun _ => hrecord
  faultPc := by simp [hfault]
  fetchRecord := by simp [hcause]
  zeroRecord := by simp [hcause]
  klenRecord := by simp [hcause]
  misalignedRecord := by simp [hcause]
  wordRecord := by simp [hcause]

/-- A reset state meets the invariant (R50, R370). -/
theorem resetAt_inv (epoch : Nat) (sched : List Turn) (replies : List HostReply) :
    (State.resetAt epoch sched replies).Inv :=
  .of_clear ⟨.inl rfl, .inl rfl, .inl rfl⟩ (resetAt_storageWf _ _ _) rfl rfl ⟨rfl, rfl, rfl⟩

/-- START clears HALTED, FAULT and the record (R354). -/
theorem State.Inv.start {s : State} (h : s.Inv) (p : Word) : (s.start p).Inv :=
  .of_clear ⟨.inr rfl, .inr rfl, .inl rfl⟩ ⟨h.xZero, h.dmemWf, h.imemWf⟩ rfl rfl ⟨rfl, rfl, rfl⟩

/-- STOP clears RUN alone, which no other part of the invariant reads (R355). -/
theorem State.Inv.stop {s : State} (h : s.Inv) : s.stop.Inv :=
  have ⟨_, _, hhf⟩ := h.oneStatus
  { h with oneStatus := ⟨.inl rfl, .inl rfl, hhf⟩ }

/-- A running engine has neither halted nor faulted (R40). -/
theorem AtMostOneStatus.of_run {s : State} (h : AtMostOneStatus s) (hr : s.run = true) :
    s.halted = false ∧ s.fault = false := by
  obtain ⟨hh, hf, -⟩ := h
  simp_all

/-- HALT of a running engine records no fault (R300). -/
theorem State.Inv.halt {s : State} (h : s.Inv) (hr : s.run = true) : s.halt.Inv :=
  { h with oneStatus := ⟨.inl rfl, .inl rfl, .inr (h.oneStatus.of_run hr).2⟩ }

/-- Fault entry of a running engine with an agreeing record keeps the invariant (R330). -/
theorem State.Inv.raise {s : State} (h : s.Inv) (hr : s.run = true) {trap : Trap} {w : Word}
    (hw : RecordWf s.pc trap w) : (s.raise trap w).Inv where
  oneStatus := ⟨.inl rfl, .inl rfl, .inl (h.oneStatus.of_run hr).1⟩
  xZero := h.xZero
  dmemWf := h.dmemWf
  imemWf := h.imemWf
  causeIffFault := ⟨fun _ => rfl, fun _ => hw.cause⟩
  recordClear := fun hc => absurd hc hw.cause
  faultPc := fun _ => rfl
  fetchRecord := fun hc => ⟨hw.fetch hc, if_pos hc⟩
  zeroRecord := hw.zero
  klenRecord := hw.klen
  misalignedRecord := hw.misaligned
  wordRecord := fun _ hf hi => by simpa [show trap.cause ≠ .fetchFault from hf] using hw.legal hf hi

/-- An instruction of a running engine keeps the invariant. -/
theorem InstrEffect.inv {i : Instr} {s t : State} (he : InstrEffect i s t) (h : s.Inv) (hr : s.run = true) :
    t.Inv := by
  have hnf := (h.oneStatus.of_run hr).2
  rcases he.record with ⟨trap, ht, rfl⟩ | ⟨-, rfl⟩ | hsame
  · exact h.raise hr (ht.recordWf s.pc i)
  · exact h.halt hr
  · exact h.of_sameRecord hsame (he.storageWf h.storage) (fun hf => by simp [hnf] at hf)

theorem EngineEffect.inv {s t : State} (he : EngineEffect s t) (h : s.Inv) : t.Inv := by
  cases he with
  | idle hr => exact h
  | fetchFault hr hf => exact h.raise hr (fetchFault_recordWf _ _)
  | illegal hr hf e hd => exact h.raise hr (illegalTrap_recordWf _ _)
  | executed hr hf i hd t hx => exact (exec_effect i s t hx).inv h hr

theorem HostEffect.inv {x : HostTx} {s t : State} (he : HostEffect x s t) (h : s.Inv) : t.Inv := by
  rcases he.record with ⟨p, -, -, rfl⟩ | ⟨-, rfl⟩ | ⟨-, rfl⟩ | ⟨hsame, hpc⟩
  · exact h.start p
  · exact h.stop
  · exact resetAt_inv _ _ _
  · exact h.of_sameRecord hsame (he.storageWf h.storage) (fun _ => hpc)

/-- Settles O11: a step is the engine's effect or a transaction's (`step_cases`), and each keeps the invariant. -/
theorem everyStepKeepsTheInvariant : Obligations.EveryStepKeepsTheInvariant := by
  intro s t h hstep
  rcases step_cases s t hstep with ⟨rest, -, he⟩ | ⟨x, rest, -, rfl⟩
  · exact he.inv (h.set_sched rest)
  · exact ((hostAccess_effect _ x).inv (h.set_sched rest)).set_replies _

/-- Settles O12: power-on reset is reset number 0, with nothing pending. -/
theorem resetMeetsTheInvariant : Obligations.ResetMeetsTheInvariant := resetAt_inv 0 [] []

/-! ## The pc (R37) -/

/-- An instruction leaves the pc, moves it by 4, or moves it to a target counted in words. -/
theorem InstrEffect.pc {i : Instr} {s t : State} (h : InstrEffect i s t) :
    t.pc = s.pc ∨ t.pc = s.pc + 4#32 ∨ ∃ off, t.pc = branchTarget s.pc off := by
  cases h with
  | raised => exact .inl rfl
  | halted => exact .inl rfl
  | moved a ha => exact .inr ha
  | storeVector => exact .inr (.inl (by simp))
  | _ => exact .inr (.inl rfl)

theorem InstrEffect.pc_aligned {i : Instr} {s t : State} (h : InstrEffect i s t) (hs : s.pc.toNat % 4 = 0) :
    t.pc.toNat % 4 = 0 := by
  rcases h.pc with hpc | hpc | ⟨off, hpc⟩ <;> rw [hpc]
  · exact hs
  · rw [BitVec.toNat_add, BitVec.toNat_ofNat]
    omega
  · have := toNat_branchTarget s.pc off
    omega

theorem EngineEffect.pc_aligned {s t : State} (h : EngineEffect s t) (hs : s.pc.toNat % 4 = 0) :
    t.pc.toNat % 4 = 0 := by
  cases h with
  | executed hr hf i hd t hx => exact (exec_effect i s t hx).pc_aligned hs
  | _ => exact hs

theorem HostEffect.pc_aligned {x : HostTx} {s t : State} (h : HostEffect x s t) (hs : s.pc.toNat % 4 = 0)
    (hstart : ∀ p, x = .start p → p.toNat % 4 = 0) : t.pc.toNat % 4 = 0 := by
  rcases h.record with ⟨p, hx, -, rfl⟩ | ⟨-, rfl⟩ | ⟨-, rfl⟩ | ⟨-, hpc⟩
  · exact hstart p hx
  · exact hs
  · rfl
  · rwa [hpc]

/-- Settles O13: no turn but START brings in an address that is not counted from the pc in words. -/
theorem pcStaysAligned : Obligations.PcStaysAligned := by
  intro s t hs hstart hstep
  rcases step_cases s t hstep with ⟨rest, -, he⟩ | ⟨x, rest, hx, rfl⟩
  · exact he.pc_aligned hs
  · exact (hostAccess_effect _ x).pc_aligned hs (fun p hp => hstart p rest (hp ▸ hx))

/-! ## RUN, HALTED and FAULT (R40) -/

theorem InstrTrap.cause_ne_none {trap : Trap} (h : InstrTrap trap) : trap.cause ≠ .none :=
  (h.recordWf 0#32 .halt).cause

/-- The engine's turn leaves the three bits, executes HALT, or faults. -/
theorem EngineEffect.status {s t : State} (h : EngineEffect s t) :
    (t.run = s.run ∧ t.halted = s.halted ∧ t.fault = s.fault) ∨
    (s.run = true ∧ fetchable s.pc = true ∧ decode (fetchedWord s) = .ok .halt ∧ t = s.halt) ∨
    (s.run = true ∧ ∃ trap w, trap.cause ≠ .none ∧ t = s.raise trap w) := by
  cases h with
  | idle => exact .inl ⟨rfl, rfl, rfl⟩
  | fetchFault hr => exact .inr (.inr ⟨hr, _, _, by simp, rfl⟩)
  | illegal hr => exact .inr (.inr ⟨hr, illegalTrap, _, InstrTrap.illegal.cause_ne_none, rfl⟩)
  | executed hr hf i hd t hx =>
    rcases (exec_effect i s t hx).record with ⟨trap, ht, rfl⟩ | ⟨rfl, rfl⟩ | hsame
    · exact .inr (.inr ⟨hr, trap, _, ht.cause_ne_none, rfl⟩)
    · exact .inr (.inl ⟨hr, hf, hd, rfl⟩)
    · exact .inl ⟨hsame.run, hsame.halted, hsame.fault⟩

/-- A transaction moves the three bits if it is an accepted START, a STOP or a RESET, and else leaves them. -/
theorem HostEffect.status {x : HostTx} {s t : State} (h : HostEffect x s t) :
    (∃ p, x = .start p ∧ s.run = false ∧ t.run = true ∧ t.halted = false ∧ t.fault = false) ∨
    (x = .stop ∧ t.run = false ∧ t.halted = s.halted ∧ t.fault = s.fault) ∨
    (x = .reset ∧ t.run = false ∧ t.halted = false ∧ t.fault = false) ∨
    (t.run = s.run ∧ t.halted = s.halted ∧ t.fault = s.fault) := by
  rcases h.record with ⟨p, hx, hr, rfl⟩ | ⟨hx, rfl⟩ | ⟨hx, rfl⟩ | ⟨hsame, -⟩
  · exact .inl ⟨p, hx, hr, rfl, rfl, rfl⟩
  · exact .inr (.inl ⟨hx, rfl, rfl, rfl⟩)
  · exact .inr (.inr (.inl ⟨hx, rfl, rfl, rfl⟩))
  · exact .inr (.inr (.inr ⟨hsame.run, hsame.halted, hsame.fault⟩))

/-- Settles O15: how the bits move is read off the step's effect, and each move leaves at most one of them set, since
HALT and a fault happen to a running engine only. -/
theorem statusBitsMoveOnlyAsRuled : Obligations.StatusBitsMoveOnlyAsRuled := by
  intro s t hstep
  refine (and_iff_right_of_imp fun hmove hone => ?_).2 ?_
  · have ⟨_, _, hhf⟩ := hone
    rcases hmove with ⟨hr, hh, hf⟩ | ⟨_, _, _, _, hr, hh, hf⟩ | ⟨_, hready, _, hr, hh, hf⟩ |
      ⟨_, _, hrun, _, hr, hf, hh⟩ | ⟨_, _, hr, hh, hf⟩ | ⟨_, _, hr, hh, hf⟩
    · simpa only [AtMostOneStatus, hr, hh, hf] using hone
    · exact ⟨.inr hh, .inr hf, .inl hh⟩
    · exact ⟨.inl hr, .inl hr, .inr (hf.trans (hone.of_run hready.run).2)⟩
    · exact ⟨.inl hr, .inl hr, .inl (hh.trans (hone.of_run hrun).1)⟩
    · exact ⟨.inl hr, .inl hr, by rwa [hh, hf]⟩
    · exact ⟨.inl hr, .inl hr, .inl hh⟩
  · rcases step_cases s t hstep with ⟨rest, hturn, he⟩ | ⟨x, rest, hx, rfl⟩
    · rcases he.status with hsame | ⟨hr, hf, hd, rfl⟩ | ⟨hr, trap, w, hc, rfl⟩
      · exact .inl hsame
      · obtain ⟨haligned, hinside⟩ := (fetchable_iff _).1 hf
        exact .inr (.inr (.inl ⟨rest, ⟨hturn, hr, haligned, hinside⟩, hd, rfl, rfl, rfl⟩))
      · exact .inr (.inr (.inr (.inl ⟨rest, hturn, hr, hc, rfl, rfl, rfl⟩)))
    · rcases (hostAccess_effect { s with sched := rest } x).status with
        ⟨p, rfl, hstart⟩ | ⟨rfl, hstop⟩ | ⟨rfl, hreset⟩ | hsame
      · exact .inr (.inl ⟨p, rest, hx, hstart⟩)
      · exact .inr (.inr (.inr (.inr (.inl ⟨rest, hx, hstop⟩))))
      · exact .inr (.inr (.inr (.inr (.inr ⟨rest, hx, hreset⟩))))
      · exact .inl hsame

/-! ## OVF (R41) -/

/-- What an instruction does to OVF: nothing, a sticky flag if its result may not fit, or CSRW STATUS. -/
theorem InstrEffect.ovf {i : Instr} {s t : State} (h : InstrEffect i s t) :
    t.ovf = s.ovf ∨ (t.ovf = true ∧ canOverflow i = true) ∨
    ∃ rs1, i = .csrw 0x000 rs1 ∧ t.ovf = (s.readX rs1).getLsbD 3 := by
  have hflag : ∀ b : Bool, (b = true → canOverflow i = true) →
      (s.ovf || b) = s.ovf ∨ ((s.ovf || b) = true ∧ canOverflow i = true) := by
    intro b hb
    cases b
    · exact .inl (Bool.or_false _)
    · exact .inr ⟨Bool.or_true _, hb rfl⟩
  cases h with
  | scalar rd w b _ hb => exact (hflag b hb).imp id .inl
  | vector vd u b _ hb => exact (hflag b hb).imp id .inl
  | status rs1 hi => exact .inr (.inr ⟨rs1, hi, rfl⟩)
  | storeVector => exact .inl (by simp)
  | _ => exact .inl rfl

/-- R41's list, apart from CSRW. -/
theorem mnemonic_of_canOverflow {i : Instr} (h : canOverflow i = true) :
    i.mnemonic ∈ ["ADD", "SUB", "MUL", "ADDI", "DIV", "VMADD16", "VADD32", "VHSUM32", "KPOLICY", "VALSCALE",
      "KVALUE"] := by
  cases i with
  | add | sub | mul | div | addi | valscale | vmadd16 | vadd32 | vhsum32 | kpolicy | kvalue => simp [Instr.mnemonic]
  | _ => cases h

/-- Settles O16: apart from CSRW STATUS, whose bit 3 is written, OVF only sets, and only if the result may not fit. -/
theorem ovfMovesOnlyAsRuled : Obligations.OvfMovesOnlyAsRuled := by
  intro i s t h
  rcases (exec_effect i s t h).ovf with hsame | ⟨hset, hcan⟩ | ⟨rs1, rfl, hbit⟩
  · exact ⟨fun hs => .inl (hsame.trans hs), fun hne => absurd hsame hne⟩
  · exact ⟨fun _ => .inl hset, fun _ => List.mem_append_left ["CSRW"] (mnemonic_of_canOverflow hcan)⟩
  · refine ⟨fun _ => ?_, fun _ => by simp [Instr.mnemonic]⟩
    cases hb : (s.readX rs1).getLsbD 3
    · exact .inr ⟨rs1, rfl, hb⟩
    · exact .inl (hbit.trans hb)

/-! ## KLEN (R43) -/

/-- Settles O17: CSRW KLEN is the one effect that writes KLEN. -/
theorem klenMovesOnlyByCsrw : Obligations.KlenMovesOnlyByCsrw := by
  intro i s t h
  cases exec_effect i s t h with
  | klen rs1 hi => exact .inr ⟨rs1, hi, rfl⟩
  | storeVector => exact .inl (by simp)
  | _ => exact .inl rfl

/-! ## The registers (R31, R32, R36) -/

/-- A scalar register that an instruction changes is its destination and not x0. -/
theorem InstrEffect.scalarDest_of_readX_ne {i : Instr} {s t : State} (h : InstrEffect i s t) {r : XReg}
    (hne : t.readX r ≠ s.readX r) : r ≠ 0 ∧ scalarDest i = some r := by
  refine ⟨fun hr => hne (by rw [hr, readX_zero, readX_zero]), ?_⟩
  cases h with
  | scalar rd w b hd =>
    by_cases hr : r = rd
    · rw [hr, hd]
    · exact absurd (by simp [hr]) hne
  | storeVector => exact absurd (readX_congr _ _ (by simp) r) hne
  | _ => exact absurd rfl hne

/-- A vector register that an instruction changes is its destination. -/
theorem InstrEffect.vectorDest_of_readV_ne {i : Instr} {s t : State} (h : InstrEffect i s t) {r : VReg}
    (hne : t.readV r ≠ s.readV r) : vectorDest i = some r := by
  cases h with
  | vector vd u b hd =>
    by_cases hr : r = vd
    · rw [hr, hd]
    · exact absurd (by simp [readV_writeV, hr]) hne
  | storeVector => exact absurd (readV_congr _ _ (by simp) r) hne
  | _ => exact absurd rfl hne

/-- R32: the instructions that write scalar registers. -/
theorem instr_of_scalarDest {i : Instr} {r : XReg} (h : scalarDest i = some r) :
    (∃ a b, i = .add r a b ∨ i = .sub r a b ∨ i = .mul r a b ∨ i = .div r a b ∨ i = .valscale r a b) ∨
    (∃ a z, i = .addi r a z ∨ i = .lw r a z) ∨ (∃ n, i = .csrr r n) ∨ (∃ a, i = .vhsum32 r a) ∨
    (∃ a b c, i = .kpolicy r a b c) ∨ (∃ a b c d, i = .kvalue r a b c d) := by
  cases i with
  | add | sub | mul | div | valscale | addi | lw | csrr | vhsum32 | kpolicy | kvalue =>
    simpa [scalarDest] using h
  | _ => cases h

/-- R36: the instructions that write vector registers. -/
theorem instr_of_vectorDest {i : Instr} {r : VReg} (h : vectorDest i = some r) :
    i = .vzero r ∨ (∃ a, i = .vset1 r a) ∨ (∃ a z, i = .vld r a z) ∨
    (∃ a b, i = .vmin16 r a b ∨ i = .vmax16 r a b ∨ i = .vmullo16 r a b ∨ i = .vmadd16 r a b ∨
      i = .vadd32 r a b) := by
  cases i with
  | vzero | vset1 | vld | vmin16 | vmax16 | vmullo16 | vmadd16 | vadd32 => simpa [vectorDest] using h
  | _ => cases h

/-- Settles O18: a changed register is a destination, and the destinations are R32's and R36's lists. -/
theorem registersMoveOnlyAsDestinations : Obligations.RegistersMoveOnlyAsDestinations := by
  intro i s t h
  have he := exec_effect i s t h
  refine ⟨fun r hne => ?_, fun r hne => instr_of_vectorDest (he.vectorDest_of_readV_ne hne)⟩
  obtain ⟨hzero, hdest⟩ := he.scalarDest_of_readX_ne hne
  exact ⟨hzero, instr_of_scalarDest hdest⟩

/-! ## The host's accesses to control registers (R38, R353) -/

/-- The host's turn is the transaction on the state with that turn taken (R359). -/
theorem step_host (s : State) (x : HostTx) (rest : List Turn) (h : s.sched = .host x :: rest) :
    step s = .next (({ s with sched := rest } : State).hostTurn x) := by
  simp [step, h]

/-- A CSR write of a stopped engine that `writeCsr` accepts (R353). -/
theorem hostTurn_wrCsr_ok (s : State) (n : Nat) (w : Word) (c : Csr) (t : State) (hr : s.run = false)
    (hc : csrOf n = some c) (hw : s.writeCsr c w = some t) :
    s.hostTurn (.wrCsr n w) = { t with replies := .ok :: t.replies } := by
  simp [State.hostTurn, hostAccess, whenStopped_of_stopped _ _ hr, hc, hw]

/-- A CSR write of a number other than STATUS's and KLEN's (R353). -/
theorem hostTurn_wrCsr_err (s : State) (n : Nat) (w : Word) (hr : s.run = false) (h0 : n ≠ 0x000)
    (h1 : n ≠ 0x010) : s.hostTurn (.wrCsr n w) = { s with replies := .err :: s.replies } := by
  have hnone : (csrOf n).bind (fun c => s.writeCsr c w) = none := by
    cases hc : csrOf n with
    | none => rfl
    | some c =>
      rcases writeCsr_cases s c w with ⟨rfl, -⟩ | ⟨rfl, -⟩ | ⟨-, -, hw⟩
      · exact absurd (csrOf_eq_status n hc) h0
      · exact absurd (csrOf_eq_klen n hc) h1
      · exact hw
  simp [State.hostTurn, hostAccess, whenStopped_of_stopped _ _ hr, hnone]

/-- A CSR read of a stopped engine answers what the host reads (R353). -/
theorem hostTurn_rdCsr_ok (s : State) (n : Nat) (c : Csr) (hr : s.run = false) (hc : csrOf n = some c) :
    s.hostTurn (.rdCsr n) = { s with replies := .okWord (s.hostReadCsr c) :: s.replies } := by
  cases c <;> simp [State.hostTurn, hostAccess, hc, whenStopped_of_stopped _ _ hr]

/-- A CSR read of an unassigned number is ERR (R48, R353). -/
theorem hostTurn_rdCsr_err (s : State) (n : Nat) (hc : csrOf n = none) :
    s.hostTurn (.rdCsr n) = { s with replies := .err :: s.replies } := by
  simp [State.hostTurn, hostAccess, hc]

/-- STATUS of a stopped engine as a sum of its bits (R39). -/
theorem statusForHost_of_stopped (s : State) (hr : s.run = false) :
    s.statusForHost = BitVec.ofNat 32 (2 * s.halted.toNat + 4 * s.fault.toNat + 8 * s.ovf.toNat) := by
  unfold State.statusForHost
  rw [hr]
  cases s.halted <;> cases s.fault <;> cases s.ovf <;> decide

/-- The model's cause codes are those of R325. -/
theorem causeCode_eq_spec (c : Cause) : causeCode c = specCauseCode c := by
  cases c <;> rfl

/-- The 13 numbers of R38, and what the host reads there from a stopped engine. -/
theorem csrOf_of_mem_map (s : State) (n : Nat) (value : Word) (hr : s.run = false)
    (h : (n, value) ∈
      [(0x000, BitVec.ofNat 32 (2 * s.halted.toNat + 4 * s.fault.toNat + 8 * s.ovf.toNat)),
        (0x001, specCauseCode s.cause), (0x002, s.fpc), (0x003, s.faddr), (0x004, s.finst), (0x010, s.klen),
        (0x020, 255#32), (0x021, 64#32), (0x022, 400#32), (0x023, 32#32), (0x030, 0x414F4D01#32),
        (0x031, 65536#32), (0x032, 4096#32)]) :
    ∃ c, csrOf n = some c ∧ s.hostReadCsr c = value := by
  rw [← statusForHost_of_stopped s hr, ← causeCode_eq_spec] at h
  simp only [List.mem_cons, Prod.mk.injEq, List.not_mem_nil, or_false] at h
  rcases h with ⟨rfl, rfl⟩ | ⟨rfl, rfl⟩ | ⟨rfl, rfl⟩ | ⟨rfl, rfl⟩ | ⟨rfl, rfl⟩ | ⟨rfl, rfl⟩ | ⟨rfl, rfl⟩ |
    ⟨rfl, rfl⟩ | ⟨rfl, rfl⟩ | ⟨rfl, rfl⟩ | ⟨rfl, rfl⟩ | ⟨rfl, rfl⟩ | ⟨rfl, rfl⟩
  all_goals exact ⟨_, rfl, rfl⟩

/-- Every other number is unassigned (R48). -/
theorem csrOf_eq_none (n : Nat)
    (h : n ∉ [0x000, 0x001, 0x002, 0x003, 0x004, 0x010, 0x020, 0x021, 0x022, 0x023, 0x030, 0x031, 0x032]) :
    csrOf n = none := by
  unfold csrOf
  split
  case h_14 => rfl
  all_goals simp at h

/-- Settles O60: a write is STATUS's, KLEN's or ERR, a read is of one of the 13 numbers or ERR. -/
theorem hostReadsAndWritesCsrs : Obligations.HostReadsAndWritesCsrs := by
  intro s n w rest hr
  refine ⟨fun hx => ?_, fun hx => ⟨fun value hmem => ?_, fun hn => ?_⟩⟩ <;> rw [step_host s _ rest hx]
  · by_cases h0 : n = 0x000
    · subst h0
      exact congrArg _ (hostTurn_wrCsr_ok { s with sched := rest } 0x000 w .status _ hr rfl rfl)
    · by_cases h1 : n = 0x010
      · subst h1
        exact congrArg _ (hostTurn_wrCsr_ok { s with sched := rest } 0x010 w .klen _ hr rfl rfl)
      · rw [if_neg h0, if_neg h1]
        exact congrArg _ (hostTurn_wrCsr_err _ n w hr h0 h1)
  · obtain ⟨c, hc, rfl⟩ := csrOf_of_mem_map s n value hr hmem
    exact congrArg _ (hostTurn_rdCsr_ok _ n c hr hc)
  · exact congrArg _ (hostTurn_rdCsr_err _ n (csrOf_eq_none n hn))

end Sys2Proof.Machine
end

section
/-! PROOFS. The family of spec/20_memory.md: which fetches fault, which bytes of the two memories a turn can change, and
that scalar and vector accesses see one byte order. The faults and the changes rest on the inversion lemmas
`exec_effect` and `engineTurn_effect`. -/

namespace Sys2Proof.Machine

/-! ## The fetch (R78, R320, R326) -/

/-- While RUN = 1 the engine's turn is its step (R320). -/
theorem engineTurn_of_run (s : State) (hr : s.run = true) : engineTurn s = engineStep s := if_pos hr

/-- The fetch check fails exactly on a pc that is misaligned or too high (R78). -/
theorem fetchable_eq_false_iff (pc : Word) : fetchable pc = false ↔ pc.toNat % 4 ≠ 0 ∨ pc.toNat + 4 > 4096 := by
  rw [Bool.eq_false_iff, ne_eq, fetchable_iff]
  omega

/-- A pc that fails the fetch check raises FETCH_FAULT (R326). -/
theorem engineStep_faulted_of_not_fetchable (s : State) (hf : fetchable s.pc = false) :
    ∃ t, engineStep s = .next t ∧ Faulted .fetchFault s.pc 0#32 s t := by
  refine ⟨s.raise ⟨.fetchFault, s.pc⟩ 0#32, by simp [engineStep, hf], ?_⟩
  simpa using raise_faulted s ⟨.fetchFault, s.pc⟩ 0#32

/-- An illegal word at a good pc raises ILLEGAL_INSTR and is the word recorded (R112, R325). -/
theorem engineStep_faulted_of_illegal (s : State) (hf : fetchable s.pc = true) (e : Illegal)
    (hd : decode (fetchedWord s) = .error e) :
    ∃ t, engineStep s = .next t ∧ Faulted .illegalInstr 0#32 (fetchedWord s) s t := by
  have hword : s.ifetch s.pc.toNat = fetchedWord s := rfl
  refine ⟨s.raise illegalTrap (fetchedWord s), by simp [engineStep, hf, hword, hd], ?_⟩
  simpa [illegalTrap] using raise_faulted s illegalTrap (fetchedWord s)

/-- Settles O7: the turn is the running engine's step, which takes the exception before anything is executed. -/
theorem fetchAndDecodeFault : Obligations.FetchAndDecodeFault := by
  intro s rest hturn hr
  rw [step_of_engineTurn s rest hturn, engineTurn_of_run { s with sched := rest } hr]
  refine ⟨fun hpc => ?_, fun e haligned hinside hd => ?_⟩
  · exact engineStep_faulted_of_not_fetchable { s with sched := rest } ((fetchable_eq_false_iff s.pc).2 hpc)
  · exact engineStep_faulted_of_illegal { s with sched := rest } ((fetchable_iff s.pc).2 ⟨haligned, hinside⟩) e hd

/-! ## Instruction memory (R70, R89) -/

/-- No instruction writes instruction memory. -/
theorem InstrEffect.imemByte {i : Instr} {s t : State} (h : InstrEffect i s t) (a : Nat) :
    t.imemByte a = s.imemByte a := by
  cases h with
  | storeVector => exact imemByte_congr _ _ (by simp) (by simp) a
  | _ => rfl

/-- Settles O14: idle, faulting or executing, the engine leaves instruction memory alone. -/
theorem engineNeverWritesImem : Obligations.EngineNeverWritesImem := by
  intro s t h a
  cases engineTurn_effect s t h with
  | executed hr hf i hd t hx => exact (exec_effect i s t hx).imemByte a
  | _ => rfl

/-! ## Data memory (R71, R81) -/

/-- The pc is no part of a read of data memory. -/
@[simp] theorem dmemByte_advance (s : State) (a : Nat) : s.advance.dmemByte a = s.dmemByte a := rfl

@[simp] theorem loadWord_advance (s : State) (a : Nat) : s.advance.loadWord a = s.loadWord a := rfl

/-- A byte that a store of `n` bytes at `a` changes is one of them. -/
theorem mem_range_of_storeBytes_ne {s : State} {a b : Nat} {f : Nat → Byte} (n : Nat)
    (hne : (s.storeBytes a f n).dmemByte b ≠ s.dmemByte b) : a ≤ b ∧ b < a + n := by
  rw [dmemByte_storeBytes] at hne
  exact of_not_not fun hout => hne (if_neg hout)

/-- Settles O19: SW and VST are the two effects that write data memory, each by one `storeBytes` at its address. -/
theorem onlyStoresChangeDmem : Obligations.OnlyStoresChangeDmem := by
  intro i s t h b hne
  cases exec_effect i s t h with
  | storeWord rt rs1 imm hi =>
    rw [dmemByte_advance] at hne
    exact .inl ⟨rt, rs1, imm, hi, mem_range_of_storeBytes_ne 4 hne⟩
  | storeVector vt rs1 imm hi =>
    rw [dmemByte_advance] at hne
    exact .inr ⟨vt, rs1, imm, hi, mem_range_of_storeBytes_ne Config.vlenb hne⟩
  | _ => exact absurd rfl hne

/-! ## Words and vectors in one byte order (R72, R73, R75) -/

/-- An effective address that neither wraps nor falls below 0 is the sum (R260). -/
theorem toNat_address_of_lt (s : State) (rs1 : XReg) (n : Nat) (h : (s.readX rs1).toNat + n < 4294967296) :
    (s.address rs1 n).toNat = (s.readX rs1).toNat + n := by
  have := toNat_effectiveAddress (s.readX rs1) n
  unfold State.address
  omega

/-- The next state of VST when its checks pass (R264). -/
theorem exec_vst_ready (s : State) (vt : VReg) (rs1 : XReg) (imm : Int) (a : Nat) (ha : (s.address rs1 imm).toNat = a)
    (haligned : a % 32 = 0) (hinside : a + 32 ≤ 65536) :
    exec (.vst vt rs1 imm) s = .next (s.storeVector a (s.readV vt)).advance := by
  subst ha
  have hpass : storeTrap Config.vlenb (s.address rs1 imm) = none :=
    (accessTrap_eq_none_iff _ _ _ _ _).2 ⟨haligned, hinside⟩
  simp only [exec, execVst, hpass, checked_none]

/-- The next state of LW when its checks pass (R261). -/
theorem exec_lw_ready (s : State) (rd rs1 : XReg) (imm : Int) (a : Nat) (ha : (s.address rs1 imm).toNat = a)
    (haligned : a % 4 = 0) (hinside : a + 4 ≤ 65536) :
    exec (.lw rd rs1 imm) s = .next (s.writeX rd (s.loadWord a)).advance := by
  subst ha
  have hpass : loadTrap 4 (s.address rs1 imm) = none :=
    (accessTrap_eq_none_iff _ _ _ _ _).2 ⟨haligned, hinside⟩
  simp only [exec, execLw, hpass, checked_none]

/-- Byte `i` of lane `j` is byte `4j + i` of the vector (R72, R75). -/
theorem byteOfVector_lane (u : VWord) (j i : Nat) (hi : i < 4) :
    byteOfVector u (4 * j + i) = (e32 u j).extractLsb' (8 * i) 8 := by
  apply BitVec.eq_of_getLsbD_eq
  intro b hb
  have hlane : 8 * i + b < 32 := by omega
  have hbit : 8 * (4 * j + i) + b = 32 * j + (8 * i + b) := by omega
  simp only [byteOfVector, e32, BitVec.getLsbD_extractLsb', hlane, hbit, decide_true, Bool.true_and]

/-- A byte of a vector just stored (R73). -/
theorem dmemByte_storeVector (s : State) (a i : Nat) (u : VWord) (hi : i < 32) :
    (s.storeVector a u).dmemByte (a + i) = byteOfVector u i := by
  rw [State.storeVector, dmemByte_storeBytes, if_pos ⟨Nat.le_add_right a i, Nat.add_lt_add_left hi a⟩,
    Nat.add_sub_cancel_left]

/-- The word at `a + 4j` after a vector was stored at `a` is its lane `j` (R75): they are the same four bytes. -/
theorem loadWord_storeVector (s : State) (a j : Nat) (u : VWord) (hj : j < 8) :
    (s.storeVector a u).loadWord (a + 4 * j) = e32 u j := by
  have hbytes : ∀ i, i < 4 →
      (s.storeVector a u).dmemByte (a + 4 * j + i) = (e32 u j).extractLsb' (8 * i) 8 := by
    intro i hi
    rw [Nat.add_assoc, dmemByte_storeVector s a _ u (by omega), byteOfVector_lane u j i hi]
  calc (s.storeVector a u).loadWord (a + 4 * j)
    _ = pack 32 8 (fun i => (e32 u j).extractLsb' (8 * i) 8) 4 := pack_congr 32 8 _ _ 4 hbytes
    _ = e32 u j := pack_extract 32 8 4 (by omega) rfl (e32 u j)

/-- Settles O32: both accesses pass their checks, VST keeps the base register, and the word read is the lane stored. -/
theorem wordAfterVectorStoreIsLane : Obligations.WordAfterVectorStoreIsLane := by
  intro vt rd rs1 s j hrd hj haligned hinside
  have hbase : ((s.storeVector (s.readX rs1).toNat (s.readV vt)).advance).readX rs1 = s.readX rs1 :=
    readX_congr _ _ (by simp) rs1
  have hvst := exec_vst_ready s vt rs1 0 _ (toNat_address_of_lt s rs1 0 (by omega)) haligned hinside
  have hlw := exec_lw_ready _ rd rs1 ((4 * j : Nat) : Int) _
    (toNat_address_of_lt (s.storeVector (s.readX rs1).toNat (s.readV vt)).advance rs1 (4 * j) (by rw [hbase]; omega))
    (by rw [hbase]; omega) (by rw [hbase]; omega)
  refine ⟨_, _, hvst, hlw, ?_⟩
  rw [readX_advance, readX_writeX_self _ _ _ hrd, hbase, loadWord_advance]
  exact loadWord_storeVector s _ j (s.readV vt) hj

end Sys2Proof.Machine
end

section
/-! PROOFS. The family of spec/30_encoding.md: the decoder and the encoder are inverse to each other on legal words and
well-formed instructions, the legal words are those of the opcode map, and where an encoded word holds its fields.
`decode_eq_ok_iff` says once which words the decoder accepts and what it makes of them; all else rests on it. -/

namespace Sys2Proof

/-! ## The decoder, row by row (R112, R114, R115) -/

/-- No two rows of R114 share an opcode. -/
theorem opcodeTable_nodup : (opcodeTable.map fun r => opField r.pattern).Nodup := by decide

/-- Every row's mask covers the opcode (R114). -/
theorem opField_mask_of_mem : ∀ r ∈ opcodeTable, opField r.mask = BitVec.allOnes 6 := by decide

/-- The row found for a word is the one row with its opcode. -/
theorem rowOf_eq_some_iff (w : Word) (r : OpRow) :
    rowOf w = some r ↔ r ∈ opcodeTable ∧ opField r.pattern = opField w := by
  have hfound : ∀ r', rowOf w = some r' → r' ∈ opcodeTable ∧ opField r'.pattern = opField w := fun r' h =>
    ⟨List.mem_of_find?_eq_some h, by simpa using List.find?_some h⟩
  refine ⟨hfound r, fun ⟨hmem, hop⟩ => ?_⟩
  obtain ⟨r', hr'⟩ : ∃ r', rowOf w = some r' :=
    Option.isSome_iff_exists.1 (List.find?_isSome.2 ⟨r, hmem, by simpa using hop⟩)
  obtain ⟨hmem', hop'⟩ := hfound r' hr'
  rw [hr', List.inj_on_of_nodup_map opcodeTable_nodup hmem' hmem (hop'.trans hop.symm)]

/-- Where a mask is all ones, a word that matches under it holds the match's bits. -/
theorem extract_of_match {w mask pattern : Word} (h : w &&& mask = pattern) (start len : Nat)
    (hmask : mask.extractLsb' start len = BitVec.allOnes len) :
    w.extractLsb' start len = pattern.extractLsb' start len := by
  rw [← h, BitVec.extractLsb'_and, hmask, BitVec.and_allOnes]

/-- The legal words are those that match a row under its mask, and the row builds the instruction. -/
theorem decode_eq_ok_iff (w : Word) (i : Instr) :
    decode w = .ok i ↔ ∃ r ∈ opcodeTable, w &&& r.mask = r.pattern ∧ r.build w = i := by
  constructor
  · intro h
    unfold decode at h
    split at h
    · cases h
    · next r hrow =>
      split at h
      · next hmatch => exact ⟨r, ((rowOf_eq_some_iff w r).1 hrow).1, hmatch, Except.ok.inj h⟩
      · cases h
  · rintro ⟨r, hmem, hmatch, rfl⟩
    have hop := extract_of_match hmatch 26 6 (opField_mask_of_mem r hmem)
    simp [decode, (rowOf_eq_some_iff w r).2 ⟨hmem, hop.symm⟩, hmatch]

/-! ## Decoding what was encoded (R115) -/

/-- An encoded word decodes to its instruction when the row its opcode selects builds that instruction from it. -/
theorem decode_encode_of_row {i : Instr} {op : BitVec 6} {r : OpRow} (hop : opField (encode i) = op)
    (hrow : opcodeTable.find? (fun r => opField r.pattern == op) = some r) (hbuild : r.build (encode i) = i) :
    decode (encode i) = .ok i := by
  obtain ⟨r', hr', -, hmatch⟩ := Machine.encode_matches_row i
  obtain rfl : r' = r := Option.some.inj (hr'.symm.trans ((rowOf_eq_of_op _ op hop).trans hrow))
  exact (decode_eq_ok_iff _ i).2 ⟨r', ((rowOf_eq_some_iff _ r').1 hr').1, hmatch, hbuild⟩

/-- Settles O1: each format's fields are read back, and the immediates and CSR numbers fit theirs. -/
theorem decodeOfEncode : Obligations.DecodeOfEncode := by
  intro i hwf
  cases i with
  | halt | add | sub | mul | div | valscale | vzero | vset1 | vmin16 | vmax16 | vmullo16 | vmadd16 | vadd32 | vhsum32
  | kpolicy | kvalue =>
    refine decode_encode_of_row (opField_formatR ..) rfl ?_
    simp [encode]
  | csrr _ n | csrw n _ =>
    refine decode_encode_of_row (opField_formatC ..) rfl ?_
    simp [encode, csrField_formatC _ _ _ n hwf]
  | addi _ _ z | lw _ _ z | sw _ _ z | vld _ _ z | vst _ _ z | beq _ _ z | bne _ _ z | blt _ _ z =>
    refine decode_encode_of_row (opField_formatI ..) rfl ?_
    simp [encode, imm18Field_formatI _ _ _ z hwf]
  | j z =>
    refine decode_encode_of_row (opField_formatJ ..) rfl ?_
    simp [encode, imm26Field_formatJ _ z hwf]

/-! ## Encoding what was decoded (R112) -/

theorem fitsImm18_iff (z : Int) : fitsImm18 z = true ↔ -131072 ≤ z ∧ z ≤ 131071 := by simp [fitsImm18]

theorem fitsImm26_iff (z : Int) : fitsImm26 z = true ↔ -33554432 ≤ z ∧ z ≤ 33554431 := by simp [fitsImm26]

theorem fitsImm18_imm18Field (w : Word) : fitsImm18 (imm18Field w) = true :=
  (fitsImm18_iff _).2 ⟨BitVec.le_toInt _, Int.le_of_lt_add_one BitVec.toInt_lt⟩

theorem fitsImm26_imm26Field (w : Word) : fitsImm26 (imm26Field w) = true :=
  (fitsImm26_iff _).2 ⟨BitVec.le_toInt _, Int.le_of_lt_add_one BitVec.toInt_lt⟩

theorem fitsCsr_csrField (w : Word) : fitsCsr (csrField w) = true :=
  decide_eq_true (w.extractLsb' 0 12).isLt

/-- What a row builds fits its fields: operands are read from fields of their own width. -/
theorem wellFormed_build : ∀ r ∈ opcodeTable, ∀ w, (r.build w).wellFormed = true := by
  simp [opcodeTable, opcodeTableScalar, opcodeTableMemory, opcodeTableVector, Instr.wellFormed, fitsImm18_imm18Field,
    fitsImm26_imm26Field, fitsCsr_csrField]

/-- A row builds an instruction of its own mnemonic. -/
theorem mnemonic_build : ∀ r ∈ opcodeTable, ∀ w, (r.build w).mnemonic = r.mnemonic := by
  simp [opcodeTable, opcodeTableScalar, opcodeTableMemory, opcodeTableVector, Instr.mnemonic]

/-- A word of format R is put together from its fields (R102). -/
theorem formatR_eq {w : Word} {op : BitVec 6} {a b c d e : Fin 16} (hop : opField w = op) (ha : fieldA w = a)
    (hb : fieldB w = b) (hc : fieldC w = c) (hd : fieldD w = d) (he : fieldE w = e)
    (hlow : w.extractLsb' 0 6 = 0#6) : formatR op a b c d e = w := by
  subst hop ha hb hc hd he
  rw [formatR, ← hlow]
  change w.extractLsb' 26 6 ++ w.extractLsb' 22 4 ++ w.extractLsb' 18 4 ++ w.extractLsb' 14 4 ++ w.extractLsb' 10 4 ++
    w.extractLsb' 6 4 ++ w.extractLsb' 0 6 = w
  simp (disch := rfl) only [BitVec.extractLsb'_append_extractLsb'_eq_extractLsb']
  exact BitVec.extractLsb'_eq_self

/-- A word of formats I and B is put together from its fields (R103, R104). -/
theorem formatI_eq {w : Word} {op : BitVec 6} (hop : opField w = op) :
    formatI op (fieldA w) (fieldB w) (imm18Field w) = w := by
  subst hop
  rw [formatI, imm18Field, BitVec.ofInt_toInt]
  change w.extractLsb' 26 6 ++ w.extractLsb' 22 4 ++ w.extractLsb' 18 4 ++ w.extractLsb' 0 18 = w
  simp (disch := rfl) only [BitVec.extractLsb'_append_extractLsb'_eq_extractLsb']
  exact BitVec.extractLsb'_eq_self

/-- A word of format J is put together from its fields (R105). -/
theorem formatJ_eq {w : Word} {op : BitVec 6} (hop : opField w = op) : formatJ op (imm26Field w) = w := by
  subst hop
  rw [formatJ, imm26Field, BitVec.ofInt_toInt]
  change w.extractLsb' 26 6 ++ w.extractLsb' 0 26 = w
  simp (disch := rfl) only [BitVec.extractLsb'_append_extractLsb'_eq_extractLsb']
  exact BitVec.extractLsb'_eq_self

/-- A word of format C is put together from its fields (R106). -/
theorem formatC_eq {w : Word} {op : BitVec 6} {a b : Fin 16} (hop : opField w = op) (ha : fieldA w = a)
    (hb : fieldB w = b) (hlow : w.extractLsb' 12 6 = 0#6) : formatC op a b (csrField w) = w := by
  subst hop ha hb
  rw [formatC, ← hlow, csrField, BitVec.ofNat_toNat, BitVec.setWidth_eq]
  change w.extractLsb' 26 6 ++ w.extractLsb' 22 4 ++ w.extractLsb' 18 4 ++ w.extractLsb' 12 6 ++ w.extractLsb' 0 12 = w
  simp (disch := rfl) only [BitVec.extractLsb'_append_extractLsb'_eq_extractLsb']
  exact BitVec.extractLsb'_eq_self

/-- Every match of R114 is an opcode above 26 zeros: a word of the row has the opcode. -/
theorem opField_of_match {w mask : Word} {op : BitVec 6} (h : w &&& mask = op ++ 0#26)
    (hmask : opField mask = BitVec.allOnes 6) : opField w = op :=
  (extract_of_match h 26 6 hmask).trans BitVec.extractLsb'_append_eq_left

/-- R112: below the opcode, the bits the mask covers must be zero. -/
theorem zero_of_match {w mask : Word} {op : BitVec 6} (h : w &&& mask = op ++ 0#26) (start len : Nat)
    (hle : start + len ≤ 26) (hmask : mask.extractLsb' start len = BitVec.allOnes len) :
    w.extractLsb' start len = 0#len :=
  (extract_of_match h start len hmask).trans
    ((BitVec.extractLsb'_append_eq_of_add_le hle).trans BitVec.extractLsb'_zero)

/-- The register named by the field at bit `start` in a row with this mask: x0 or v0 where the mask covers the field. -/
def rowReg (mask w : Word) (start : Nat) : Fin 16 :=
  if mask.extractLsb' start 4 = 0#4 then (w.extractLsb' start 4).toFin else 0

/-- A mask leaves free or covers the whole register field at bit `start`. -/
abbrev FreeOrCovered (mask : Word) (start : Nat) : Prop :=
  mask.extractLsb' start 4 = 0#4 ∨ mask.extractLsb' start 4 = BitVec.allOnes 4

/-- R112: in a word that matches, a covered register field is zero, so the row loses nothing of it. -/
theorem regField_eq_rowReg {w mask : Word} {op : BitVec 6} (h : w &&& mask = op ++ 0#26) (start : Nat)
    (hle : start + 4 ≤ 26) (hmask : FreeOrCovered mask start) :
    (w.extractLsb' start 4).toFin = rowReg mask w start := by
  rcases hmask with hfree | hcovered
  · rw [rowReg, if_pos hfree]
  · rw [rowReg, if_neg (by rw [hcovered]; decide), zero_of_match h start 4 hle hcovered]
    rfl

/-- The masks of the rows of format R (R102). -/
abbrev FormatRMask (mask : Word) : Prop :=
  opField mask = BitVec.allOnes 6 ∧ FreeOrCovered mask 22 ∧ FreeOrCovered mask 18 ∧ FreeOrCovered mask 14 ∧
    FreeOrCovered mask 10 ∧ FreeOrCovered mask 6 ∧ mask.extractLsb' 0 6 = BitVec.allOnes 6

/-- A word that matches a row of format R is put together from the registers the row names. -/
theorem formatR_of_match {w mask : Word} (op : BitVec 6) (h : w &&& mask = op ++ 0#26) (hmask : FormatRMask mask) :
    formatR op (rowReg mask w 22) (rowReg mask w 18) (rowReg mask w 14) (rowReg mask w 10) (rowReg mask w 6) = w := by
  obtain ⟨hop, ha, hb, hc, hd, he, hlow⟩ := hmask
  exact formatR_eq (opField_of_match h hop) (regField_eq_rowReg h 22 (by decide) ha)
    (regField_eq_rowReg h 18 (by decide) hb) (regField_eq_rowReg h 14 (by decide) hc)
    (regField_eq_rowReg h 10 (by decide) hd) (regField_eq_rowReg h 6 (by decide) he)
    (zero_of_match h 0 6 (by decide) hlow)

/-- The masks of the rows of format C (R106). -/
abbrev FormatCMask (mask : Word) : Prop :=
  opField mask = BitVec.allOnes 6 ∧ FreeOrCovered mask 22 ∧ FreeOrCovered mask 18 ∧
    mask.extractLsb' 12 6 = BitVec.allOnes 6

/-- A word that matches a row of format C is put together from the register the row names and the CSR number. -/
theorem formatC_of_match {w mask : Word} (op : BitVec 6) (h : w &&& mask = op ++ 0#26) (hmask : FormatCMask mask) :
    formatC op (rowReg mask w 22) (rowReg mask w 18) (csrField w) = w := by
  obtain ⟨hop, ha, hb, hreserved⟩ := hmask
  exact formatC_eq (opField_of_match h hop) (regField_eq_rowReg h 22 (by decide) ha)
    (regField_eq_rowReg h 18 (by decide) hb) (zero_of_match h 12 6 (by decide) hreserved)

theorem formatI_of_match {w : Word} (op : BitVec 6) (h : w &&& 0xFC000000#32 = op ++ 0#26) :
    formatI op (fieldA w) (fieldB w) (imm18Field w) = w :=
  formatI_eq (opField_of_match h rfl)

theorem formatJ_of_match {w : Word} (op : BitVec 6) (h : w &&& 0xFC000000#32 = op ++ 0#26) :
    formatJ op (imm26Field w) = w :=
  formatJ_eq (opField_of_match h rfl)

/-- The system and scalar rows. The terms `( … :)` are elaborated on their own, so that `h` settles the row's mask first. -/
theorem encode_build_scalar :
    ∀ r ∈ opcodeTableScalar, ∀ w, w &&& r.mask = r.pattern → encode (r.build w) = w := by
  simp only [opcodeTableScalar, List.forall_mem_cons]
  exact ⟨fun w h => (formatR_of_match 0x01#6 h (by decide) :),
    fun w h => (formatC_of_match 0x02#6 h (by decide) :),
    fun w h => (formatC_of_match 0x03#6 h (by decide) :),
    fun w h => (formatR_of_match 0x08#6 h (by decide) :),
    fun w h => (formatR_of_match 0x09#6 h (by decide) :),
    fun w h => (formatR_of_match 0x0A#6 h (by decide) :),
    fun w h => (formatR_of_match 0x0B#6 h (by decide) :),
    fun w h => formatI_of_match 0x0C#6 h,
    fun w h => (formatR_of_match 0x0D#6 h (by decide) :),
    by simp⟩

/-- The rows of the loads, stores and control transfers. -/
theorem encode_build_memory :
    ∀ r ∈ opcodeTableMemory, ∀ w, w &&& r.mask = r.pattern → encode (r.build w) = w := by
  simp only [opcodeTableMemory, List.forall_mem_cons]
  exact ⟨fun w h => formatI_of_match 0x10#6 h,
    fun w h => formatI_of_match 0x11#6 h,
    fun w h => formatI_of_match 0x12#6 h,
    fun w h => formatI_of_match 0x13#6 h,
    fun w h => formatI_of_match 0x18#6 h,
    fun w h => formatI_of_match 0x19#6 h,
    fun w h => formatI_of_match 0x1A#6 h,
    fun w h => formatJ_of_match 0x1B#6 h,
    by simp⟩

/-- The rows of the vector primitives and the fused kernels. -/
theorem encode_build_vector :
    ∀ r ∈ opcodeTableVector, ∀ w, w &&& r.mask = r.pattern → encode (r.build w) = w := by
  simp only [opcodeTableVector, List.forall_mem_cons]
  exact ⟨fun w h => (formatR_of_match 0x20#6 h (by decide) :),
    fun w h => (formatR_of_match 0x21#6 h (by decide) :),
    fun w h => (formatR_of_match 0x22#6 h (by decide) :),
    fun w h => (formatR_of_match 0x23#6 h (by decide) :),
    fun w h => (formatR_of_match 0x24#6 h (by decide) :),
    fun w h => (formatR_of_match 0x25#6 h (by decide) :),
    fun w h => (formatR_of_match 0x26#6 h (by decide) :),
    fun w h => (formatR_of_match 0x27#6 h (by decide) :),
    fun w h => (formatR_of_match 0x30#6 h (by decide) :),
    fun w h => (formatR_of_match 0x31#6 h (by decide) :),
    by simp⟩

/-- A word that matches a row is the encoding of what the row builds: every bit is the row's or in an operand. -/
theorem encode_build (r : OpRow) (hmem : r ∈ opcodeTable) (w : Word) (h : w &&& r.mask = r.pattern) :
    encode (r.build w) = w := by
  rw [opcodeTable, List.mem_append, List.mem_append] at hmem
  rcases hmem with (hs | hm) | hv
  · exact encode_build_scalar r hs w h
  · exact encode_build_memory r hm w h
  · exact encode_build_vector r hv w h

/-- Settles O2: the row that matched builds fitting operands, and the encoder puts the word together again. -/
theorem encodeOfDecode : Obligations.EncodeOfDecode := by
  intro w i h
  obtain ⟨r, hmem, hmatch, rfl⟩ := (decode_eq_ok_iff w i).1 h
  exact ⟨wellFormed_build r hmem w, encode_build r hmem w hmatch⟩

/-! ## The opcode map (R114) -/

/-- The map written out in the statement is the decoder's table without its builders. -/
theorem specOpcodeMap_eq_map : specOpcodeMap = opcodeTable.map fun r => (r.mnemonic, r.pattern, r.mask) := rfl

/-- Settles O3: a legal word's row names the instruction it builds, and each row is one of the written-out map. -/
theorem legalWordsAreTheOpcodeMap : Obligations.LegalWordsAreTheOpcodeMap := by
  intro w name
  rw [specOpcodeMap_eq_map]
  constructor
  · rintro ⟨i, hdecode, rfl⟩
    obtain ⟨r, hmem, hmatch, rfl⟩ := (decode_eq_ok_iff w i).1 hdecode
    exact ⟨_, List.mem_map_of_mem hmem, (mnemonic_build r hmem w).symm, hmatch⟩
  · rintro ⟨_, hrow, rfl, hmatch⟩
    obtain ⟨r, hmem, rfl⟩ := List.mem_map.1 hrow
    exact ⟨r.build w, (decode_eq_ok_iff w _).2 ⟨r, hmem, hmatch, rfl⟩, mnemonic_build r hmem w⟩

/-! ## The encoded word as a number (R102 to R106, R108 to R111) -/

/-- A wrapped integer, as a number, is its remainder. -/
theorem intCast_toNat_ofInt (n : Nat) (z : Int) : ((BitVec.ofInt n z).toNat : Int) = z % 2 ^ n := by
  rw [BitVec.toNat_ofInt, Int.toNat_of_nonneg (Int.emod_nonneg _ (by positivity))]
  norm_cast

/-- Settles O4: each format's word is the sum of its fields at their places. -/
theorem encodedWordFieldByField : Obligations.EncodedWordFieldByField := by
  intro i hwf
  cases i with
  | halt | add | sub | mul | div | valscale | vzero | vset1 | vmin16 | vmax16 | vmullo16 | vmadd16 | vadd32 | vhsum32
  | kpolicy | kvalue =>
    simp [encode, toNat_formatR, specWord]
  | csrr _ n | csrw n _ =>
    have hn : n % 2 ^ 12 = n := Nat.mod_eq_of_lt (of_decide_eq_true hwf)
    simp only [encode, toNat_formatC, BitVec.toNat_ofNat, hn]
    simp [specWord]
  | addi | lw | sw | vld | vst | beq | bne | blt =>
    simp [encode, toNat_formatI, specWord, intCast_toNat_ofInt, -BitVec.toNat_ofInt]
  | j => simp [encode, toNat_formatJ, specWord, intCast_toNat_ofInt, -BitVec.toNat_ofInt]

/-! ## The worked encodings (R116) -/

/-- A word that a well-formed instruction encodes to decodes to it. -/
theorem decode_of_encode_eq {i : Instr} {w : Word} (hwf : i.wellFormed = true) (h : encode i = w) :
    decode w = .ok i :=
  h ▸ decodeOfEncode i hwf

/-- Settles O5: each of the eleven words is what its instruction encodes to. -/
theorem workedEncodingsDecode : Obligations.WorkedEncodingsDecode := by
  unfold Obligations.WorkedEncodingsDecode
  refine ⟨?_, ?_, ?_, ?_, ?_, ?_, ?_, ?_, ?_, ?_, ?_⟩ <;> exact decode_of_encode_eq (by decide) (by decide)

end Sys2Proof
end

section
/-! PROOFS. The family of spec/40_vector_ops.md: what each vector primitive writes and leaves, and the accumulation law
(R149) with the chunked forms of the two kernels (R183, R205). The law and both forms rest on one fact: VHSUM32 takes
VADD32 to addition mod 2^32 and VMADD16 to the wrapped dot product of the elements. -/

namespace Sys2Proof.Machine

/-! ## Element-wise primitives (R141 to R145) -/

/-- The shared ending of the primitives that keep OVF: the vector in `v[vd]`, pc + 4, and nothing else. -/
theorem writeV_advance_spec (s : State) (vd : VReg) (u : VWord) :
    (s.writeV vd u).advance.readV vd = u ∧ (s.writeV vd u).advance.ovf = s.ovf ∧
      (s.writeV vd u).advance.pc = s.pc + 4#32 ∧ OnlyVector vd s (s.writeV vd u).advance :=
  ⟨by simp [readV_writeV], rfl, rfl, onlyVector_writeV_advance s vd u⟩

/-- An instruction that ends by writing the vector `u` meets a specification of its result that `u` meets. -/
theorem exists_next_of_writeV {i : Instr} {s : State} {vd : VReg} {u : VWord} {P : VWord → Prop}
    (hexec : exec i s = .next (s.writeV vd u).advance) (hu : P u) :
    ∃ t, exec i s = .next t ∧ P (t.readV vd) ∧ t.ovf = s.ovf ∧ t.pc = s.pc + 4#32 ∧ OnlyVector vd s t := by
  obtain ⟨hread, hovf, hpc, hframe⟩ := writeV_advance_spec s vd u
  exact ⟨_, hexec, hread.symm ▸ hu, hovf, hpc, hframe⟩

/-- Every element of the zero vector is 0 (R141). -/
theorem e16_zero (k : Nat) : e16 0#256 k = 0#16 := by simp [e16]

/-- Every lane of the zero vector is 0 (R141). -/
theorem e32_zero (j : Nat) : e32 0#256 j = 0#32 := by simp [e32]

/-- Settles O38: the elements of the zero vector and of a broadcast. -/
theorem vzeroAndVset1FillElements : Obligations.VzeroAndVset1FillElements := by
  intro vd rs1 s
  exact ⟨exists_next_of_writeV (P := fun u => ∀ k, k < 16 → e16 u k = 0#16) rfl fun k _ => e16_zero k,
    exists_next_of_writeV (P := fun u => ∀ k, k < 16 → e16 u k = (s.readX rs1).extractLsb' 0 16) rfl
      (e16_broadcast16 (s.readX rs1))⟩

/-- Settles O39: the smaller and the larger of two int16 elements is an int16, so nothing is lost in the write. -/
theorem vminAndVmaxAreSignedElementwise : Obligations.VminAndVmaxAreSignedElementwise := by
  intro vd vs1 vs2 s
  exact ⟨exists_next_of_writeV (P := fun u => ∀ k, k < 16 →
      (e16 u k).toInt = min (e16 (s.readV vs1) k).toInt (e16 (s.readV vs2) k).toInt) rfl (toInt_e16_minVector _ _),
    exists_next_of_writeV (P := fun u => ∀ k, k < 16 →
      (e16 u k).toInt = max (e16 (s.readV vs1) k).toInt (e16 (s.readV vs2) k).toInt) rfl (toInt_e16_maxVector _ _)⟩

/-- Settles O40: the low 16 bits of a product, read as signed, are its balanced remainder mod 2^16. -/
theorem vmulloKeepsLowHalves : Obligations.VmulloKeepsLowHalves := by
  intro vd vs1 vs2 s
  exact exists_next_of_writeV (P := fun u => ∀ k, k < 16 →
    (e16 u k).toInt = ((e16 (s.readV vs1) k).toInt * (e16 (s.readV vs2) k).toInt).bmod 65536) rfl
    (toInt_e16_mulloVector _ _)

/-! ## VMADD16 (R146) -/

/-- A product of two int16 values is in magnitude at most 2^30. -/
theorem half_mul_range (x y : Half) : -1073741824 ≤ x.toInt * y.toInt ∧ x.toInt * y.toInt ≤ 1073741824 := by
  obtain ⟨hx, hx'⟩ := toInt_half_range x
  obtain ⟨hy, hy'⟩ := toInt_half_range y
  constructor <;> nlinarith

/-- Only -32768 * -32768 reaches 2^30. -/
theorem half_mul_eq_max_iff (x y : Half) :
    x.toInt * y.toInt = 1073741824 ↔ x.toInt = -32768 ∧ y.toInt = -32768 := by
  obtain ⟨hx, hx'⟩ := toInt_half_range x
  obtain ⟨hy, hy'⟩ := toInt_half_range y
  constructor
  · intro h
    constructor <;> nlinarith
  · rintro ⟨h1, h2⟩
    simp [h1, h2]

/-- The four elements of lane `j` of two vectors are all -32768 (R146). -/
def AllMin (a b : VWord) (j : Nat) : Prop :=
  (e16 a (2 * j)).toInt = -32768 ∧ (e16 a (2 * j + 1)).toInt = -32768 ∧
    (e16 b (2 * j)).toInt = -32768 ∧ (e16 b (2 * j + 1)).toInt = -32768

/-- In the overflowing case of R146 the exact sum is 2^31. -/
theorem maddExact_of_allMin {a b : VWord} {j : Nat} (h : AllMin a b j) : maddExact a b j = 2147483648 := by
  obtain ⟨ha, ha', hb, hb'⟩ := h
  simp [maddExact, ha, ha', hb, hb']

/-- A lane's exact sum fails to fit int32 exactly when both products are 2^30 (R146). -/
theorem maddExact_overflows_iff (a b : VWord) (j : Nat) :
    (maddExact a b j < -2147483648 ∨ maddExact a b j > 2147483647) ↔ AllMin a b j := by
  constructor
  · intro h
    have hlow := half_mul_range (e16 a (2 * j)) (e16 b (2 * j))
    have hhigh := half_mul_range (e16 a (2 * j + 1)) (e16 b (2 * j + 1))
    unfold maddExact at h
    obtain ⟨ha, hb⟩ := (half_mul_eq_max_iff (e16 a (2 * j)) (e16 b (2 * j))).1 (by omega)
    obtain ⟨ha', hb'⟩ := (half_mul_eq_max_iff (e16 a (2 * j + 1)) (e16 b (2 * j + 1))).1 (by omega)
    exact ⟨ha, ha', hb, hb'⟩
  · intro h
    have := maddExact_of_allMin h
    omega

/-- Settles O41: the one overflowing case of a lane wraps 2^31 to -2^31, and every other lane is exact. -/
theorem vmaddSumsPairsOfProducts : Obligations.VmaddSumsPairsOfProducts := by
  intro vd vs1 vs2 s
  obtain ⟨hlanes, hovf, hpc, hframe⟩ := writeLanes_spec s vd (maddExact (s.readV vs1) (s.readV vs2))
  simp only [maddExact_overflows_iff] at hovf
  refine ⟨_, rfl, fun j hj => ⟨fun hmin => ?_, fun hmin => ?_⟩, hovf, hpc, hframe⟩
  · rw [hlanes j hj, toInt_wrap32, maddExact_of_allMin hmin]
    rfl
  · have hfits := (maddExact_overflows_iff (s.readV vs1) (s.readV vs2) j).not.2 hmin
    rw [hlanes j hj, toInt_wrap32, bmod_of_fits32 _ (by omega)]
    rfl

/-! ## VADD32 and VHSUM32 (R147, R148) -/

/-- Settles O42: wrapping the exact sum of two lanes is their sum mod 2^32. -/
theorem vaddWrapsEachLane : Obligations.VaddWrapsEachLane := by
  intro vd vs1 vs2 s
  obtain ⟨hlanes, hovf, hpc, hframe⟩ := writeLanes_spec s vd (addExact (s.readV vs1) (s.readV vs2))
  refine ⟨_, rfl, fun j hj => ?_, hovf, hpc, hframe⟩
  rw [hlanes j hj, addExact, wrap32_add, wrap32_toInt, wrap32_toInt]

/-- Settles O43: VHSUM32 ends as every instruction with an int32 result does, on the exact sum of its lanes. -/
theorem vhsumSumsTheLanes : Obligations.VhsumSumsTheLanes := by
  intro rd vs1 s sum
  have hsum : hsumExact (s.readV vs1) = sum := sumTo_eq_sum _ 8
  have hspec := writeExact_spec s rd (hsumExact (s.readV vs1))
  rw [hsum] at hspec
  exact ⟨_, congrArg (fun z => Host.Outcome.next (s.writeExact rd z)) hsum, hspec⟩

/-! ## The accumulation law (R149) -/

/-- The exact sum of the products of two vectors' elements. -/
def dotProduct (a b : VWord) : Int := (Finset.range 16).sum (fun k => (e16 a k).toInt * (e16 b k).toInt)

/-- The exact lanes of VMADD16 sum to the dot product. -/
theorem dotProduct_eq_lanes (a b : VWord) :
    dotProduct a b = maddExact a b 0 + maddExact a b 1 + maddExact a b 2 + maddExact a b 3 + maddExact a b 4 +
      maddExact a b 5 + maddExact a b 6 + maddExact a b 7 := by
  simp only [dotProduct, maddExact, Finset.sum_range_succ, Finset.sum_range_zero]
  ring

theorem hsum_zero : hsum 0#256 = 0#32 := by simp [hsum_eq_lanes, e32_zero]

/-- VHSUM32 takes VADD32 to addition mod 2^32. -/
theorem hsum_addVector (a b : VWord) : hsum (addVector a b) = hsum a + hsum b := by
  simp only [hsum_eq_lanes, e32_addVector, Nat.reduceLT]
  ac_rfl

/-- VHSUM32 takes VMADD16 to the wrapped dot product: a lane that wraps keeps its value mod 2^32. -/
theorem hsum_maddVector (a b : VWord) : hsum (maddVector a b) = wrap32 (dotProduct a b) := by
  simp only [hsum_eq_lanes, e32_maddVector, Nat.reduceLT, dotProduct_eq_lanes, wrap32_add]

/-- One term of an accumulation adds its dot product mod 2^32. -/
theorem hsum_addVector_maddVector (acc a b : VWord) :
    hsum (addVector acc (maddVector a b)) = hsum acc + wrap32 (dotProduct a b) := by
  rw [hsum_addVector, hsum_maddVector]

/-- Accumulating terms onto any vector adds the exact sum of their dot products mod 2^32. -/
theorem hsum_foldl_addVector (terms : List (VWord × VWord)) (acc : VWord) :
    hsum (terms.foldl (fun acc p => addVector acc (maddVector p.1 p.2)) acc) =
      hsum acc + wrap32 ((terms.map (fun p => dotProduct p.1 p.2)).sum) := by
  induction terms generalizing acc with
  | nil => simp [wrap32]
  | cons p terms ih =>
    rw [List.foldl_cons, ih, hsum_addVector_maddVector, List.map_cons, List.sum_cons, wrap32_add, BitVec.add_assoc]

/-- R149: the accumulation from VZERO is the wrapped exact sum. -/
theorem hsum_accumulate (terms : List (VWord × VWord)) :
    hsum (accumulate terms) = wrap32 ((terms.map (fun p => dotProduct p.1 p.2)).sum) := by
  rw [accumulate, hsum_foldl_addVector, hsum_zero, BitVec.zero_add]

/-- Settles O44: the wrapped exact sum, and an exact sum does not depend on the order of its terms. -/
theorem accumulationIsTheExactSumInAnyOrder : Obligations.AccumulationIsTheExactSumInAnyOrder := by
  intro terms terms' hperm
  constructor
  · rw [hsum_accumulate, hsum_accumulate, (hperm.map _).sum_eq]
  · rw [hsum_accumulate, toInt_wrap32]
    rfl

/-! ## The chunked kernels (R183, R205) -/

/-- A sum over the elements of `n + 1` chunks is that over `n` chunks and then over the last one. -/
theorem sumTo_chunk (f : Nat → Int) (n : Nat) :
    sumTo f (16 * (n + 1)) = sumTo f (16 * n) + (Finset.range 16).sum (fun k => f (16 * n + k)) := by
  rw [sumTo_eq_sum, sumTo_eq_sum, Nat.mul_succ, Finset.sum_range_add]

/-- An accumulator to which each chunk adds its part of two sums holds, at VHSUM32, the two sums wrapped (R149). -/
theorem hsum_chunks (f g : Nat → Int) (acc : Nat → VWord) (hzero : acc 0 = 0#256)
    (hsucc : ∀ c, hsum (acc (c + 1)) = hsum (acc c) + wrap32 ((Finset.range 16).sum (fun k => f (16 * c + k))) +
      wrap32 ((Finset.range 16).sum (fun k => g (16 * c + k)))) (n : Nat) :
    hsum (acc n) = wrap32 (sumTo f (16 * n) + sumTo g (16 * n)) := by
  induction n with
  | zero => rw [hzero, hsum_zero]; rfl
  | succ n ih =>
    simp only [hsucc, ih, sumTo_chunk, wrap32_add]
    ac_rfl

/-- Element `k` of chunk `c` of a buffer (R73). -/
theorem toInt_e16_chunk (s : State) (base c k : Nat) (hk : k < 16) :
    (e16 (s.loadVector (base + 32 * c)) k).toInt = s.element base (16 * c + k) := by
  rw [toInt_e16_loadVector s _ k hk, element_chunk]

/-- One side of one chunk of KPOLICY: VMADD16's products are the terms of R182. -/
theorem dotProduct_policyChunk (s : State) (bu bt bw c : Nat) :
    dotProduct (mulloVector (s.loadVector (bu + 32 * c)) (s.loadVector (bw + 32 * c))) (s.loadVector (bt + 32 * c)) =
      (Finset.range 16).sum (fun k => s.policyUsTerm bu bt bw (16 * c + k)) := by
  refine Finset.sum_congr rfl fun k hk => ?_
  have hk := Finset.mem_range.1 hk
  simp only [toInt_e16_mulloVector, toInt_e16_chunk, hk, State.policyUsTerm, lo16_eq_bmod]

/-- One side of one chunk of KVALUE: VMADD16's products are the terms of R202. -/
theorem dotProduct_valueChunk (s : State) (base weights c : Nat) :
    dotProduct (mulloVector (clipVector (s.loadVector (base + 32 * c))) (s.loadVector (weights + 32 * c)))
        (clipVector (s.loadVector (base + 32 * c))) =
      (Finset.range 16).sum (fun k => s.valueTerm base weights (16 * c + k)) := by
  refine Finset.sum_congr rfl fun k hk => ?_
  have hk := Finset.mem_range.1 hk
  simp only [toInt_e16_mulloVector, toInt_e16_clipVector, toInt_e16_chunk, hk, State.valueTerm, lo16_eq_bmod]
  exact mul_comm _ _

/-- The them half of R182 is the us half with the sides exchanged and the second block of weights. -/
theorem policyThemTerm_eq_policyUsTerm (s : State) (len bu bt bw : Nat) :
    s.policyThemTerm len bu bt bw = s.policyUsTerm bt bu (bw + 2 * len) := rfl

/-- KPOLICY's chunked form over `n` chunks is the wrapped exact sum of their terms (R149, R183). -/
theorem hsum_policyChunks (s : State) (len bu bt bw n : Nat) :
    hsum (s.policyChunks len bu bt bw n) =
      wrap32 (sumTo (s.policyUsTerm bu bt bw) (16 * n) + sumTo (s.policyThemTerm len bu bt bw) (16 * n)) := by
  refine hsum_chunks _ _ (s.policyChunks len bu bt bw) rfl (fun c => ?_) n
  rw [State.policyChunks, hsum_addVector_maddVector, hsum_addVector_maddVector, dotProduct_policyChunk,
    dotProduct_policyChunk, policyThemTerm_eq_policyUsTerm]

/-- KVALUE's chunked form over `n` chunks is the wrapped exact sum of their terms (R149, R205). -/
theorem hsum_valueChunks (s : State) (len bu bt bw n : Nat) :
    hsum (s.valueChunks len bu bt bw n) =
      wrap32 (sumTo (s.valueTerm bu bw) (16 * n) + sumTo (s.valueTerm bt (bw + 2 * len)) (16 * n)) := by
  refine hsum_chunks _ _ (s.valueChunks len bu bt bw) rfl (fun c => ?_) n
  rw [State.valueChunks, hsum_addVector_maddVector, hsum_addVector_maddVector, dotProduct_valueChunk,
    dotProduct_valueChunk]

/-- A ready kernel's KLEN is covered by its whole chunks (R43, R181). -/
theorem KernelReady.chunks {klen bu bt bw : Nat} (h : KernelReady klen bu bt bw) : 16 * (klen / 16) = klen :=
  Nat.mul_div_cancel' (Nat.dvd_of_mod_eq_zero h.multiple)

/-- What an int32 result leaves in its register: the wrapped value, but 0 in x0 (R31, R230). -/
theorem readX_writeExact (s : State) (rd : XReg) (z : Int) :
    (s.writeExact rd z).readX rd = if rd = 0 then 0#32 else wrap32 z := by
  rw [State.writeExact, readX_advance, readX_writeX]
  by_cases h : rd = 0 <;> simp [h]

/-- Settles O48: both forms are the wrapped exact sum of R182 over all of KLEN. -/
theorem kpolicyEqualsItsChunkedForm : Obligations.KpolicyEqualsItsChunkedForm := by
  intro rd rs1 rs2 rs3 s hready
  refine ⟨_, execKpolicy_ready s rd rs1 rs2 rs3 hready, ?_⟩
  rw [readX_writeExact, hsum_policyChunks, hready.chunks, State.policySum]

/-- Settles O49: both forms scale the wrapped exact sum of R202 over all of KLEN. -/
theorem kvalueEqualsItsChunkedForm : Obligations.KvalueEqualsItsChunkedForm := by
  intro rd rs1 rs2 rs3 rs4 s hready
  refine ⟨_, execKvalue_ready s rd rs1 rs2 rs3 rs4 hready, (writeScaled_spec _ rd _ _).1.trans ?_⟩
  rw [hsum_valueChunks, hready.chunks]
  rfl

end Sys2Proof.Machine
end

section
/-! PROOFS. The family of spec/41_policy_kernel.md: the checks of the two kernels in their order (R181), the cross sum
KPOLICY writes (R182, R184), and what follows from it for zero accumulators and moved buffers (R186, R207). -/

namespace Sys2Proof.Machine

/-! ## The checks in their order (R181) -/

/-- A check in front of a chain of checks lengthens the chain. -/
theorem ite_some_or {α : Type} (c : Prop) [Decidable c] (a : α) (o p : Option α) :
    (if c then some a else o).or p = if c then some a else o.or p := by
  split <;> rfl

theorem klenTrap_eq (klen : Word) : klenTrap klen =
    if klen.toNat = 0 ∨ klen.toNat % 16 ≠ 0 then some ⟨.klenInvalid, klen⟩ else none := rfl

theorem bufferTrap_eq (n : Nat) (base : Word) : bufferTrap n base =
    if base.toNat % 32 ≠ 0 then some ⟨.loadMisaligned, base⟩
    else if base.toNat + n > 65536 then some ⟨.loadAccess, base⟩ else none := rfl

/-- The checks of R181 as one chain: the first condition that holds decides the trap. -/
theorem kernelTrap_eq_chain (klen bu bt bw : Word) : kernelTrap klen bu bt bw =
    if klen.toNat = 0 ∨ klen.toNat % 16 ≠ 0 then some ⟨.klenInvalid, klen⟩
    else if bu.toNat % 32 ≠ 0 then some ⟨.loadMisaligned, bu⟩
    else if bu.toNat + 2 * klen.toNat > 65536 then some ⟨.loadAccess, bu⟩
    else if bt.toNat % 32 ≠ 0 then some ⟨.loadMisaligned, bt⟩
    else if bt.toNat + 2 * klen.toNat > 65536 then some ⟨.loadAccess, bt⟩
    else if bw.toNat % 32 ≠ 0 then some ⟨.loadMisaligned, bw⟩
    else if bw.toNat + 4 * klen.toNat > 65536 then some ⟨.loadAccess, bw⟩
    else none := by
  simp only [kernelTrap, klenTrap_eq, bufferTrap_eq, ite_some_or, Option.none_or]

/-- Both kernels are instructions guarded by the checks of R181, whose effect moves pc by 4 and raises nothing. -/
theorem exec_kernel_checked (i : Instr) (rd rs1 rs2 rs3 rs4 : XReg) (s : State)
    (hi : i = .kpolicy rd rs1 rs2 rs3 ∨ i = .kvalue rd rs1 rs2 rs3 rs4) :
    ∃ effect : State → State,
      exec i s = .next (s.checked i (kernelTrap s.klen (s.readX rs1) (s.readX rs2) (s.readX rs3)) effect) ∧
      (effect s).pc = s.pc + 4#32 ∧ (effect s).fault = s.fault := by
  rcases hi with rfl | rfl
  · exact ⟨_, rfl, rfl, rfl⟩
  · exact ⟨_, rfl, rfl, rfl⟩

/-- What R181 asks of a kernel whose first failing check is `trap`: that fault, or with none its completion. -/
def KernelOutcome (i : Instr) (s : State) : Option Trap → Prop
  | some trap => ∃ t, exec i s = .next t ∧ Faulted trap.cause trap.info (encode i) s t
  | none => ∃ t, exec i s = .next t ∧ t.pc = s.pc + 4#32 ∧ t.fault = s.fault

/-- An instruction's trap records the instruction's own word: it is never FETCH_FAULT (R325). -/
theorem InstrTrap.raise_faulted {trap : Trap} (h : InstrTrap trap) (s : State) (w : Word) :
    Faulted trap.cause trap.info w s (s.raise trap w) := by
  have hfetch : trap.cause ≠ .fetchFault := by cases h <;> simp [illegalTrap]
  simpa only [if_neg hfetch] using Machine.raise_faulted s trap w

/-- A kernel does what its first failing check says (R181, R330). -/
theorem exec_kernel_outcome (i : Instr) (rd rs1 rs2 rs3 rs4 : XReg) (s : State)
    (hi : i = .kpolicy rd rs1 rs2 rs3 ∨ i = .kvalue rd rs1 rs2 rs3 rs4) :
    KernelOutcome i s (kernelTrap s.klen (s.readX rs1) (s.readX rs2) (s.readX rs3)) := by
  obtain ⟨effect, hexec, hpc, hfault⟩ := exec_kernel_checked i rd rs1 rs2 rs3 rs4 s hi
  cases htrap : kernelTrap s.klen (s.readX rs1) (s.readX rs2) (s.readX rs3) with
  | none => exact ⟨effect s, by rw [hexec, htrap, checked_none], hpc, hfault⟩
  | some trap =>
    exact ⟨s.raise trap (encode i), by rw [hexec, htrap, checked_some],
      (instrTrap_of_kernelTrap _ _ _ _ trap htrap).raise_faulted s (encode i)⟩

/-- Settles O47: the outcome of the first failing check, with the checks written out as one chain. -/
theorem kernelChecksInOrder : Obligations.KernelChecksInOrder := by
  intro i rd rs1 rs2 rs3 rs4 s hi
  have houtcome := exec_kernel_outcome i rd rs1 rs2 rs3 rs4 s hi
  simp only [kernelTrap_eq_chain, apply_ite (KernelOutcome i s)] at houtcome
  exact houtcome

/-! ## The cross sum (R182, R184, R185) -/

/-- Settles O45: a ready KPOLICY ends as every instruction with an int32 result does, on the exact cross sum. -/
theorem kpolicyWritesCrossSum : Obligations.KpolicyWritesCrossSum := by
  intro rd rs1 rs2 rs3 s us them w len sum hready
  have hsum : s.policySum len (s.readX rs1).toNat (s.readX rs2).toNat (s.readX rs3).toNat = sum :=
    policySum_eq s len _ _ _
  exact ⟨s.writeExact rd sum, hsum ▸ execKpolicy_ready s rd rs1 rs2 rs3 hready, writeExact_spec s rd sum⟩

/-! ## Moved buffers (R186) -/

/-- KPOLICY's exact sum is a function of the elements of its three buffers (R186). -/
theorem policySum_congr {s s' : State} {len bu bt bw bu' bt' bw' : Nat}
    (hus : ∀ i, i < len → bufferElement s' bu' i = bufferElement s bu i)
    (hthem : ∀ i, i < len → bufferElement s' bt' i = bufferElement s bt i)
    (hweights : ∀ i, i < 2 * len → bufferElement s' bw' i = bufferElement s bw i) :
    s'.policySum len bu' bt' bw' = s.policySum len bu bt bw := by
  rw [policySum_eq, policySum_eq]
  congr 1
  · refine Finset.sum_congr rfl fun i hi => ?_
    have hi := Finset.mem_range.1 hi
    rw [hus i hi, hthem i hi, hweights i (by omega)]
  · refine Finset.sum_congr rfl fun i hi => ?_
    have hi := Finset.mem_range.1 hi
    rw [hus i hi, hthem i hi, hweights (len + i) (by omega)]

/-- OVF after an int32 result (R41, R230). -/
theorem ovf_writeExact (s : State) (rd : XReg) (z : Int) : (s.writeExact rd z).ovf = (s.ovf || !fits32 z) := rfl

/-- Settles O51: both runs end on the same exact sum. -/
theorem kpolicyDependsOnlyOnItsBuffers : Obligations.KpolicyDependsOnlyOnItsBuffers := by
  intro rd rs1 rs2 rs3 rd' rs1' rs2' rs3' s s' hrd hrd' hklen hovf hready hready' hsides hweights
  have hsum : s'.policySum s'.klen.toNat (s'.readX rs1').toNat (s'.readX rs2').toNat (s'.readX rs3').toNat =
      s.policySum s.klen.toNat (s.readX rs1).toNat (s.readX rs2).toNat (s.readX rs3).toNat := by
    rw [hklen]
    exact policySum_congr (fun i hi => (hsides i hi).1) (fun i hi => (hsides i hi).2) hweights
  refine ⟨_, _, execKpolicy_ready s rd rs1 rs2 rs3 hready, execKpolicy_ready s' rd' rs1' rs2' rs3' hready', ?_, ?_⟩
  · rw [readX_writeExact, readX_writeExact, if_neg hrd, if_neg hrd', hsum]
  · rw [ovf_writeExact, ovf_writeExact, hovf, hsum]

/-! ## Zero accumulators (R186, R207) -/

/-- All-zero us and them make KPOLICY's exact sum 0, whatever the weights (R186). -/
theorem policySum_of_zeros {s : State} {len bu bt : Nat} (bw : Nat)
    (hzero : ∀ i, i < len → bufferElement s bu i = 0 ∧ bufferElement s bt i = 0) :
    s.policySum len bu bt bw = 0 := by
  rw [policySum_eq, Finset.sum_eq_zero, Finset.sum_eq_zero, Int.add_zero]
  · intro i hi
    rw [(hzero i (Finset.mem_range.1 hi)).1, Int.mul_zero]
  · intro i hi
    rw [(hzero i (Finset.mem_range.1 hi)).2, Int.mul_zero]

/-- All-zero us and them clip to 0 and make KVALUE's exact sum 0, whatever the weights (R207). -/
theorem valueSum_of_zeros {s : State} {len bu bt : Nat} (bw : Nat)
    (hzero : ∀ i, i < len → bufferElement s bu i = 0 ∧ bufferElement s bt i = 0) :
    s.valueSum len bu bt bw = 0 := by
  rw [valueSum_eq, Finset.sum_eq_zero, Finset.sum_eq_zero, Int.add_zero]
  · intro i hi
    simp [(hzero i (Finset.mem_range.1 hi)).2]
  · intro i hi
    simp [(hzero i (Finset.mem_range.1 hi)).1]

/-- A quotient of an int32 by QA * QB still fits int32 (R201). -/
theorem tdiv_fits32 {z : Int} (h : -2147483648 ≤ z ∧ z ≤ 2147483647) :
    -2147483648 ≤ z.tdiv 16320 ∧ z.tdiv 16320 ≤ 2147483647 := by
  have habs : (z.tdiv 16320).natAbs = z.natAbs / 16320 := Int.natAbs_tdiv z 16320
  omega

/-- The scaled value as an integer (R201). -/
theorem toInt_scaleResult (output : Word) (bias : Half) :
    (scaleResult output bias).toInt = ((scaleProduct output bias).bmod 4294967296).tdiv 16320 := by
  have hfits := tdiv_fits32 (toInt_word_range (wrap32 (scaleProduct output bias)))
  rw [← toInt_wrap32, scaleResult, BitVec.toInt_ofInt]
  exact bmod_of_fits32 _ hfits

/-- Of a zero output VALSCALE's product is the bias's alone (R201). -/
theorem scaleProduct_zero (bias : Half) : scaleProduct 0#32 bias = bias.toInt * 400 := by
  simp [scaleProduct, tdiv, Config.escale]

/-- OVF after a scaled result (R41, R201). -/
theorem ovf_writeScaled (s : State) (rd : XReg) (output : Word) (bias : Half) :
    (s.writeScaled rd output bias).ovf = (s.ovf || !fits32 (scaleProduct output bias)) := rfl

/-- A zero output scales to `tdiv(bias * 400, 16320)` and never overflows (R201). -/
theorem writeScaled_zero (s : State) {rd : XReg} (hrd : rd ≠ 0) (bias : Half) :
    ((s.writeScaled rd 0#32 bias).readX rd).toInt = (bias.toInt * 400).tdiv 16320 ∧
    (s.writeScaled rd 0#32 bias).ovf = s.ovf := by
  have hfits : -2147483648 ≤ bias.toInt * 400 ∧ bias.toInt * 400 ≤ 2147483647 := by
    have := toInt_half_range bias
    omega
  constructor
  · rw [(writeScaled_spec s rd _ bias).1, if_neg hrd, toInt_scaleResult, scaleProduct_zero, bmod_of_fits32 _ hfits]
  · rw [ovf_writeScaled, scaleProduct_zero, (fits32_iff _).2 hfits, Bool.not_true, Bool.or_false]

/-- Settles O50: both exact sums are 0, so KPOLICY writes 0 and KVALUE scales the bias alone. -/
theorem zeroAccumulatorsGiveTheBiasAlone : Obligations.ZeroAccumulatorsGiveTheBiasAlone := by
  intro rd rs1 rs2 rs3 rs4 s hrd hready hzero
  constructor
  · refine ⟨_, execKpolicy_ready s rd rs1 rs2 rs3 hready, ?_⟩
    rw [policySum_of_zeros _ hzero, readX_writeExact, if_neg hrd, ovf_writeExact]
    exact ⟨rfl, Bool.or_false _⟩
  · refine ⟨_, execKvalue_ready s rd rs1 rs2 rs3 rs4 hready, ?_⟩
    rw [valueSum_of_zeros _ hzero]
    obtain ⟨hvalue, hovf⟩ := writeScaled_zero (s.flagOverflow (!fits32 0)) hrd (lowHalf (s.readX rs4))
    exact ⟨hvalue, hovf.trans (Bool.or_false _)⟩

end Sys2Proof.Machine
end

section
/-! PROOFS. The family of spec/42_value_kernel.md: the final scaling that VALSCALE and KVALUE share, with its range and
its overflow (R201), the clipped second-order sum KVALUE scales (R202 to R204), and what that sum depends on (R207). -/

namespace Sys2Proof.Machine

/-! ## The final scaling (R201) -/

/-- The exact product with QA and ESCALE written out. -/
theorem scaleProduct_eq (output : Word) (bias : Half) :
    scaleProduct output bias = (output.toInt.tdiv 255 + bias.toInt) * 400 := rfl

/-- The value a scaled result leaves in its register, as an integer; x0 reads 0 (R31, R201). -/
theorem toInt_readX_writeScaled (s : State) (rd : XReg) (output : Word) (bias : Half) :
    ((s.writeScaled rd output bias).readX rd).toInt =
      if rd = 0 then 0 else ((scaleProduct output bias).bmod 4294967296).tdiv 16320 := by
  rw [(writeScaled_spec s rd output bias).1, apply_ite BitVec.toInt, toInt_scaleResult]
  rfl

/-- The quotient of an int32 by QA * QB: 2^31 / 16320 is just above 131586. -/
theorem tdiv_scale_range {z : Int} (h : -2147483648 ≤ z ∧ z ≤ 2147483647) :
    -131586 ≤ z.tdiv 16320 ∧ z.tdiv 16320 ≤ 131586 := by
  have habs : (z.tdiv 16320).natAbs = z.natAbs / 16320 := Int.natAbs_tdiv z 16320
  omega

/-- The range of a scaled result, x0 included (R201). -/
theorem toInt_readX_writeScaled_range (s : State) (rd : XReg) (output : Word) (bias : Half) :
    -131586 ≤ ((s.writeScaled rd output bias).readX rd).toInt ∧
    ((s.writeScaled rd output bias).readX rd).toInt ≤ 131586 := by
  rw [toInt_readX_writeScaled, ← toInt_wrap32]
  split
  · omega
  · exact tdiv_scale_range (toInt_word_range _)

/-- The product by ESCALE leaves int32 exactly from 5368710 on, on either side of 0 (R201). -/
theorem mul_escale_overflows_iff (z : Int) :
    z * 400 < -2147483648 ∨ z * 400 > 2147483647 ↔ z ≥ 5368710 ∨ z ≤ -5368710 := by
  omega

/-- Settles O27: the shared scaled ending, with its overflow condition solved for the sum. -/
theorem valscaleWritesScaledOutput : Obligations.ValscaleWritesScaledOutput := by
  intro rd rs1 rs2 s sum
  have hproduct : scaleProduct (s.readX rs1) (lowHalf (s.readX rs2)) = sum * 400 := scaleProduct_eq _ _
  have hvalue := toInt_readX_writeScaled s rd (s.readX rs1) (lowHalf (s.readX rs2))
  obtain ⟨hlow, hhigh⟩ := toInt_readX_writeScaled_range s rd (s.readX rs1) (lowHalf (s.readX rs2))
  obtain ⟨-, hovf, hpc, hframe⟩ := writeScaled_spec s rd (s.readX rs1) (lowHalf (s.readX rs2))
  rw [hproduct] at hvalue hovf
  rw [mul_escale_overflows_iff] at hovf
  exact ⟨_, rfl, hvalue, hlow, hhigh, hovf, hpc, hframe⟩

/-! ## The clipped second-order sum (R202 to R204) -/

/-- A frame from a state in which OVF was first flagged is a frame from the state before. -/
theorem OnlyScalar.of_flagOverflow {rd : XReg} {s t : State} {b : Bool} (h : OnlyScalar rd (s.flagOverflow b) t) :
    OnlyScalar rd s t :=
  have ⟨hscalars, hvectors, hdmem, hrest⟩ := h
  ⟨hscalars, hvectors, hdmem, { hrest with }⟩

/-- OVF flagged when an exact value does not fit (R41). -/
theorem ovf_flagOverflow_fits32_iff (s : State) (z : Int) :
    (s.flagOverflow (!fits32 z)).ovf = true ↔ s.ovf = true ∨ z < -2147483648 ∨ z > 2147483647 := by
  rw [State.flagOverflow_ovf, Bool.or_eq_true, not_fits32_iff]

/-- Settles O46: a ready KVALUE flags OVF for its exact sum and then ends as VALSCALE does on the wrapped sum. -/
theorem kvalueWritesScaledClippedSum : Obligations.KvalueWritesScaledClippedSum := by
  intro rd rs1 rs2 rs3 rs4 s us them w len sum scaled hready
  have hsum : s.valueSum len (s.readX rs1).toNat (s.readX rs2).toNat (s.readX rs3).toNat = sum :=
    valueSum_eq s len _ _ _
  have hscaled : scaleProduct (wrap32 sum) (lowHalf (s.readX rs4)) = scaled := by
    rw [scaleProduct_eq, toInt_wrap32]
    rfl
  have hvalue := toInt_readX_writeScaled (s.flagOverflow (!fits32 sum)) rd (wrap32 sum) (lowHalf (s.readX rs4))
  obtain ⟨-, hovf, hpc, hframe⟩ :=
    writeScaled_spec (s.flagOverflow (!fits32 sum)) rd (wrap32 sum) (lowHalf (s.readX rs4))
  rw [hscaled] at hvalue hovf
  rw [ovf_flagOverflow_fits32_iff, or_assoc, or_assoc] at hovf
  exact ⟨_, hsum ▸ execKvalue_ready s rd rs1 rs2 rs3 rs4 hready, hvalue, hovf, hpc, hframe.of_flagOverflow⟩

/-! ## What the sum depends on (R203, R207) -/

/-- The clip with QA written out (R203). -/
theorem clip_eq (z : Int) : clip z = min (max z 0) 255 := rfl

/-- One side of the sum reads its elements only through the clip (R202, R203). -/
theorem sumTo_valueTerm_congr {s s' : State} {len base weights base' weights' : Nat}
    (hside : ∀ i, i < len → clip (s'.element base' i) = clip (s.element base i))
    (hweights : ∀ i, i < len → s'.element weights' i = s.element weights i) :
    sumTo (s'.valueTerm base' weights') len = sumTo (s.valueTerm base weights) len := by
  rw [sumTo_eq_sum, sumTo_eq_sum]
  refine Finset.sum_congr rfl fun i hi => ?_
  have hi := Finset.mem_range.1 hi
  rw [State.valueTerm, State.valueTerm, hside i hi, hweights i hi]

/-- KVALUE's exact sum is a function of the clipped elements of its two sides and of its weights (R207). -/
theorem valueSum_congr {s s' : State} {len bu bt bw bu' bt' bw' : Nat}
    (hus : ∀ i, i < len → clip (s'.element bu' i) = clip (s.element bu i))
    (hthem : ∀ i, i < len → clip (s'.element bt' i) = clip (s.element bt i))
    (hweights : ∀ i, i < 2 * len → s'.element bw' i = s.element bw i) :
    s'.valueSum len bu' bt' bw' = s.valueSum len bu bt bw := by
  have hthemWeights : ∀ i, i < len → s'.element (bw' + 2 * len) i = s.element (bw + 2 * len) i := by
    intro i hi
    rw [element_half, element_half, hweights (len + i) (by omega)]
  rw [State.valueSum, State.valueSum, sumTo_valueTerm_congr hus fun i hi => hweights i (by omega),
    sumTo_valueTerm_congr hthem hthemWeights]

/-- Settles O52: both runs scale the same exact sum with the same bias. -/
theorem kvalueDependsOnlyOnClippedElements : Obligations.KvalueDependsOnlyOnClippedElements := by
  intro rd rs1 rs2 rs3 rs4 rd' rs1' rs2' rs3' rs4' s s' hrd hrd' hklen hovf hbias hready hready' hsides hweights
  have hbias : lowHalf (s'.readX rs4') = lowHalf (s.readX rs4) := hbias
  have hsum : s'.valueSum s'.klen.toNat (s'.readX rs1').toNat (s'.readX rs2').toNat (s'.readX rs3').toNat =
      s.valueSum s.klen.toNat (s.readX rs1).toNat (s.readX rs2).toNat (s.readX rs3).toNat := by
    simp only [← clip_eq, ← element_eq_bufferElement] at hsides hweights
    rw [hklen]
    exact valueSum_congr (fun i hi => (hsides i hi).1) (fun i hi => (hsides i hi).2) hweights
  refine ⟨_, _, execKvalue_ready s rd rs1 rs2 rs3 rs4 hready,
    execKvalue_ready s' rd' rs1' rs2' rs3' rs4' hready', ?_, ?_⟩
  · rw [(writeScaled_spec _ rd _ _).1, (writeScaled_spec _ rd' _ _).1, if_neg hrd, if_neg hrd', hsum, hbias]
  · rw [ovf_writeScaled, ovf_writeScaled, State.flagOverflow_ovf, State.flagOverflow_ovf, hovf, hsum, hbias]

end Sys2Proof.Machine
end

section
/-! PROOFS. The family of spec/43_scalar_alu.md: the four instructions that write an exact result wrapped to int32
(R231 to R233, R235), and DIV, whose quotient leaves int32 in one case alone and which faults on a zero divisor (R234). -/

namespace Sys2Proof.Machine

/-! ## Exact results (R230 to R233, R235) -/

/-- An instruction that ends by writing the exact result `z` writes it as every int32 result is written (R230). -/
theorem exists_next_of_writeExact {i : Instr} {s : State} {rd : XReg} {z : Int}
    (hexec : exec i s = .next (s.writeExact rd z)) :
    ∃ t, exec i s = .next t ∧ ((t.readX rd).toInt = if rd = 0 then 0 else z.bmod 4294967296) ∧
      (t.ovf = true ↔ s.ovf = true ∨ z < -2147483648 ∨ z > 2147483647) ∧
      t.pc = s.pc + 4#32 ∧ OnlyScalar rd s t :=
  ⟨_, hexec, writeExact_spec s rd z⟩

theorem exec_add (rd rs1 rs2 : XReg) (s : State) :
    exec (.add rd rs1 rs2) s = .next (s.writeExact rd ((s.readX rs1).toInt + (s.readX rs2).toInt)) := rfl

theorem exec_sub (rd rs1 rs2 : XReg) (s : State) :
    exec (.sub rd rs1 rs2) s = .next (s.writeExact rd ((s.readX rs1).toInt - (s.readX rs2).toInt)) := rfl

theorem exec_mul (rd rs1 rs2 : XReg) (s : State) :
    exec (.mul rd rs1 rs2) s = .next (s.writeExact rd ((s.readX rs1).toInt * (s.readX rs2).toInt)) := rfl

theorem exec_addi (rd rs1 : XReg) (imm : Int) (s : State) :
    exec (.addi rd rs1 imm) s = .next (s.writeExact rd ((s.readX rs1).toInt + imm)) := rfl

/-- Settles O22: ADD ends with the exact sum as its int32 result. -/
theorem addWritesWrappedSum : Obligations.AddWritesWrappedSum := by
  intro rd rs1 rs2 s
  exact exists_next_of_writeExact (exec_add rd rs1 rs2 s)

/-- Settles O23: SUB ends with the exact difference as its int32 result. -/
theorem subWritesWrappedDifference : Obligations.SubWritesWrappedDifference := by
  intro rd rs1 rs2 s
  exact exists_next_of_writeExact (exec_sub rd rs1 rs2 s)

/-- Settles O24: MUL ends with the exact product as its int32 result. -/
theorem mulWritesWrappedProduct : Obligations.MulWritesWrappedProduct := by
  intro rd rs1 rs2 s
  exact exists_next_of_writeExact (exec_mul rd rs1 rs2 s)

/-- Settles O25: ADDI ends with the exact sum with its immediate as its int32 result. -/
theorem addiWritesWrappedSum : Obligations.AddiWritesWrappedSum := by
  intro rd rs1 imm s
  exact exists_next_of_writeExact (exec_addi rd rs1 imm s)

/-! ## Division (R234) -/

/-- DIV with a nonzero divisor ends with the truncated quotient as its exact result. -/
theorem exec_div_of_ne_zero {rd rs1 rs2 : XReg} {s : State} (h : s.readX rs2 ≠ 0#32) :
    exec (.div rd rs1 rs2) s = .next (s.writeExact rd ((s.readX rs1).toInt.tdiv (s.readX rs2).toInt)) := by
  have hpass : divisorTrap (s.readX rs2) = none := if_neg h
  rw [exec, execDiv, hpass, checked_none, tdiv]

/-- DIV with a zero divisor raises DIV_BY_ZERO(0). -/
theorem exec_div_of_zero {rd rs1 rs2 : XReg} {s : State} (h : s.readX rs2 = 0#32) :
    exec (.div rd rs1 rs2) s = .next (s.raise ⟨.divByZero, 0#32⟩ (encode (.div rd rs1 rs2))) := by
  have htrap : divisorTrap (s.readX rs2) = some ⟨.divByZero, 0#32⟩ := if_pos h
  rw [exec, execDiv, htrap, checked_some]

/-- A divisor of magnitude at least 2 brings an int32 quotient to at most 2^30 in magnitude; 1 keeps the dividend, and
-1 negates it, which leaves int32 only for -2^31. -/
theorem tdiv_overflows_iff {a b : Int} (ha : -2147483648 ≤ a ∧ a ≤ 2147483647) (hb : b ≠ 0) :
    a.tdiv b < -2147483648 ∨ a.tdiv b > 2147483647 ↔ a = -2147483648 ∧ b = -1 := by
  rcases (by omega : b = -1 ∨ b = 1 ∨ 2 ≤ b.natAbs) with rfl | rfl | hlarge
  · rw [Int.tdiv_neg, Int.tdiv_one]
    omega
  · rw [Int.tdiv_one]
    omega
  · have hquotient : (a.tdiv b).natAbs ≤ a.natAbs / 2 :=
      (Int.natAbs_tdiv a b).trans_le (Nat.div_le_div_left hlarge Nat.two_pos)
    omega

/-- The wrapped quotient of two int32 values: exact but for -2^31 / -1, whose 2^31 wraps to -2^31. -/
theorem bmod_tdiv {a b : Int} (ha : -2147483648 ≤ a ∧ a ≤ 2147483647) (hb : b ≠ 0) :
    (a.tdiv b).bmod 4294967296 = if a = -2147483648 ∧ b = -1 then -2147483648 else a.tdiv b := by
  split
  case isTrue hmin =>
    obtain ⟨rfl, rfl⟩ := hmin
    rfl
  case isFalse hmin =>
    have hfits := (tdiv_overflows_iff ha hb).not.2 hmin
    exact bmod_of_fits32 _ (by omega)

/-- Settles O26: a nonzero divisor gives the quotient as an int32 result, with its wrap and its overflow solved for the
operands; a zero divisor gives the fault. -/
theorem divTruncatesTowardZeroOrFaults : Obligations.DivTruncatesTowardZeroOrFaults := by
  intro rd rs1 rs2 s
  constructor
  · intro hne
    have hdividend := toInt_word_range (s.readX rs1)
    have hdivisor : (s.readX rs2).toInt ≠ 0 := fun h => hne (BitVec.eq_of_toInt_eq h)
    have hspec := exists_next_of_writeExact (exec_div_of_ne_zero (rd := rd) (rs1 := rs1) hne)
    rwa [bmod_tdiv hdividend hdivisor, tdiv_overflows_iff hdividend hdivisor] at hspec
  · intro hzero
    exact ⟨_, exec_div_of_zero hzero, InstrTrap.divByZero.raise_faulted s _⟩

end Sys2Proof.Machine
end

section
/-! PROOFS. The family of spec/44_load_store.md: LW, SW, VLD and VST (R261 to R264). All four are one checked access at
the effective address (R260) under the checks of R76 in their order, so that what a passing and what a failing check
leaves is proved once, for an access of any size and any effect. -/

namespace Sys2Proof.Machine

/-! ## The checked access (R76, R260) -/

/-- The effective address is the word that R260 names by its number. -/
theorem eq_address_of_toNat {s : State} {rs1 : XReg} {imm : Int} {ea : Word}
    (h : (ea.toNat : Int) = (((s.readX rs1).toNat : Int) + imm) % 4294967296) : ea = s.address rs1 imm :=
  BitVec.eq_of_toNat_eq (Int.ofNat.inj (h.trans (toNat_effectiveAddress (s.readX rs1) imm).symm))

/-- A checked instruction whose check passes takes its effect. -/
theorem exists_next_of_checked_none {i : Instr} {s : State} {trap : Option Trap} {effect : State → State}
    {P : State → Prop} (hexec : exec i s = .next (s.checked i trap effect)) (hpass : trap = none)
    (heffect : P (effect s)) : ∃ t, exec i s = .next t ∧ P t := by
  subst hpass
  exact ⟨effect s, hexec, heffect⟩

/-- A checked instruction whose check fails takes that fault (R330). -/
theorem exists_next_of_checked_some {i : Instr} {s : State} {trap : Option Trap} {effect : State → State} {c : Cause}
    {info : Word} (hexec : exec i s = .next (s.checked i trap effect)) (hfail : trap = some ⟨c, info⟩)
    (hi : InstrTrap ⟨c, info⟩) : ∃ t, exec i s = .next t ∧ Faulted c info (encode i) s t := by
  subst hfail
  exact ⟨s.raise ⟨c, info⟩ (encode i), hexec, hi.raise_faulted s (encode i)⟩

/-- The three outcomes of an access of `n` bytes at `a`: its effect, the misalignment, the range (R76). -/
theorem access_outcomes {i : Instr} {s : State} {mis acc : Cause} {n : Nat} {a : Word} {effect : State → State}
    {P : State → Prop} (hexec : exec i s = .next (s.checked i (accessTrap mis acc n n a) effect))
    (htrap : ∀ trap, accessTrap mis acc n n a = some trap → InstrTrap trap) (heffect : P (effect s)) :
    (a.toNat % n = 0 → a.toNat + n ≤ 65536 → ∃ t, exec i s = .next t ∧ P t) ∧
    (a.toNat % n ≠ 0 → ∃ t, exec i s = .next t ∧ Faulted mis a (encode i) s t) ∧
    (a.toNat % n = 0 → a.toNat + n > 65536 → ∃ t, exec i s = .next t ∧ Faulted acc a (encode i) s t) := by
  refine ⟨fun haligned hinside => ?_, fun hmisaligned => ?_, fun haligned houtside => ?_⟩
  · exact exists_next_of_checked_none hexec ((accessTrap_eq_none_iff _ _ _ _ _).2 ⟨haligned, hinside⟩) heffect
  · have hfail := accessTrap_misaligned mis acc n n a hmisaligned
    exact exists_next_of_checked_some hexec hfail (htrap _ hfail)
  · have hfail := accessTrap_outside mis acc n n a haligned houtside
    exact exists_next_of_checked_some hexec hfail (htrap _ hfail)

theorem exec_lw (rd rs1 : XReg) (imm : Int) (s : State) :
    exec (.lw rd rs1 imm) s = .next (s.checked (.lw rd rs1 imm) (loadTrap 4 (s.address rs1 imm))
      fun s => (s.writeX rd (s.loadWord (s.address rs1 imm).toNat)).advance) := rfl

theorem exec_sw (rt rs1 : XReg) (imm : Int) (s : State) :
    exec (.sw rt rs1 imm) s = .next (s.checked (.sw rt rs1 imm) (storeTrap 4 (s.address rs1 imm))
      fun s => (s.storeWord (s.address rs1 imm).toNat (s.readX rt)).advance) := rfl

theorem exec_vld (vd : VReg) (rs1 : XReg) (imm : Int) (s : State) :
    exec (.vld vd rs1 imm) s = .next (s.checked (.vld vd rs1 imm) (loadTrap 32 (s.address rs1 imm))
      fun s => (s.writeV vd (s.loadVector (s.address rs1 imm).toNat)).advance) := rfl

theorem exec_vst (vt : VReg) (rs1 : XReg) (imm : Int) (s : State) :
    exec (.vst vt rs1 imm) s = .next (s.checked (.vst vt rs1 imm) (storeTrap 32 (s.address rs1 imm))
      fun s => (s.storeVector (s.address rs1 imm).toNat (s.readV vt)).advance) := rfl

/-! ## Loads (R261, R263) -/

/-- The ending of a scalar write that keeps OVF: the word in `x[rd]` (x0 stays 0), pc + 4, and nothing else. -/
theorem writeX_advance_spec (s : State) (rd : XReg) (w : Word) :
    ((s.writeX rd w).advance.readX rd = if rd = 0 then 0#32 else w) ∧ (s.writeX rd w).advance.ovf = s.ovf ∧
      (s.writeX rd w).advance.pc = s.pc + 4#32 ∧ OnlyScalar rd s (s.writeX rd w).advance := by
  refine ⟨?_, rfl, rfl, onlyScalar_writeX_advance s rd w⟩
  split
  case isTrue hzero => rw [hzero, readX_zero]
  case isFalse hrd => rw [readX_advance, readX_writeX_self s rd w hrd]

/-- Settles O28: a word access whose effect writes the four bytes read. -/
theorem lwLoadsLittleEndianWordOrFaults : Obligations.LwLoadsLittleEndianWordOrFaults := by
  intro rd rs1 imm s ea hea
  obtain rfl := eq_address_of_toNat hea
  rw [← loadWord_eq_append]
  exact access_outcomes (exec_lw rd rs1 imm s) (fun trap => instrTrap_of_loadTrap 4 _ trap (by decide))
    (writeX_advance_spec s rd (s.loadWord (s.address rs1 imm).toNat))

/-- Element `k` of a loaded vector is its two bytes, the first least significant (R73). -/
theorem e16_loadVector_eq_append (s : State) (a k : Nat) (hk : k < 16) :
    e16 (s.loadVector a) k = (s.dmemByte (a + 2 * k + 1) ++ s.dmemByte (a + 2 * k) : BitVec 16) :=
  BitVec.eq_of_toInt_eq ((toInt_e16_loadVector s a k hk).trans (element_eq_bufferElement s a k))

/-- Settles O30: a vector access whose effect writes the elements read. -/
theorem vldLoadsElementsOrFaults : Obligations.VldLoadsElementsOrFaults := by
  intro vd rs1 imm s ea hea
  obtain rfl := eq_address_of_toNat hea
  obtain ⟨hread, hrest⟩ := writeV_advance_spec s vd (s.loadVector (s.address rs1 imm).toNat)
  refine access_outcomes (exec_vld vd rs1 imm s) (fun trap => instrTrap_of_loadTrap 32 _ trap (by decide))
    ⟨fun k hk => ?_, hrest⟩
  rw [hread]
  exact e16_loadVector_eq_append s _ k hk

/-! ## Stores (R262, R264) -/

/-- The ending of a store: byte `i` of the value at `a + i`, pc + 4, and nothing else (R72). -/
theorem storeBytes_advance_spec (s : State) (a n : Nat) (f : Nat → Byte) :
    (∀ i, i < n → (s.storeBytes a f n).advance.dmemByte (a + i) = f i) ∧
      (s.storeBytes a f n).advance.pc = s.pc + 4#32 ∧ OnlyStore a n s (s.storeBytes a f n).advance := by
  refine ⟨fun i hi => ?_, rfl, onlyStore_storeBytes s a n f⟩
  rw [dmemByte_advance, dmemByte_storeBytes, if_pos (by omega), Nat.add_sub_cancel_left]

/-- Settles O29: a word access whose effect stores the four bytes of its register. -/
theorem swStoresLittleEndianWordOrFaults : Obligations.SwStoresLittleEndianWordOrFaults := by
  intro rt rs1 imm s ea hea
  obtain rfl := eq_address_of_toNat hea
  exact access_outcomes (exec_sw rt rs1 imm s) (fun trap => instrTrap_of_storeTrap 4 _ trap (by decide))
    (storeBytes_advance_spec s _ 4 (byteOfWord (s.readX rt)))

/-- Settles O31: a vector access whose effect stores the 32 bytes of its register. -/
theorem vstStoresVectorBytesOrFaults : Obligations.VstStoresVectorBytesOrFaults := by
  intro vt rs1 imm s ea hea
  obtain rfl := eq_address_of_toNat hea
  exact access_outcomes (exec_vst vt rs1 imm s) (fun trap => instrTrap_of_storeTrap 32 _ trap (by decide))
    (storeBytes_advance_spec s _ 32 (byteOfVector (s.readV vt)))

end Sys2Proof.Machine
end

section
/-! PROOFS. The family of spec/45_control.md: BEQ, BNE, BLT and J (R281 to R284). The three branches are one branch on
a condition (`branch_spec`), each with its own condition; none of the four checks its target (R280). -/

namespace Sys2Proof.Machine

/-- A branch on a condition goes to its target or to pc + 4, as the condition decides (R281 to R283). -/
theorem exists_next_of_branch {i : Instr} {s : State} {condition : Prop} [Decidable condition] {off : Int}
    (hexec : exec i s = .next (s.branch (decide condition) off)) :
    ∃ t, exec i s = .next t ∧ OnlyPc s t ∧
      (t.pc.toNat : Int) = ((s.pc.toNat : Int) + if condition then 4 * off else 4) % 4294967296 := by
  have hspec := branch_spec s (decide condition) off
  simp only [decide_eq_true_eq] at hspec
  exact ⟨_, hexec, hspec⟩

theorem exec_beq (rs1 rs2 : XReg) (off : Int) (s : State) :
    exec (.beq rs1 rs2 off) s = .next (s.branch (decide (s.readX rs1 = s.readX rs2)) off) := rfl

theorem exec_bne (rs1 rs2 : XReg) (off : Int) (s : State) :
    exec (.bne rs1 rs2 off) s = .next (s.branch (decide (s.readX rs1 ≠ s.readX rs2)) off) := rfl

theorem exec_blt (rs1 rs2 : XReg) (off : Int) (s : State) :
    exec (.blt rs1 rs2 off) s = .next (s.branch (decide ((s.readX rs1).toInt < (s.readX rs2).toInt)) off) := rfl

theorem exec_j (off : Int) (s : State) : exec (.j off) s = .next (s.setPc (branchTarget s.pc off)) := rfl

/-- Settles O33: three branches on a condition; BNE's is that the registers differ, so its two ways on are exchanged. -/
theorem branchesGoWhereTheySay : Obligations.BranchesGoWhereTheySay := by
  intro rs1 rs2 off s
  refine ⟨exists_next_of_branch (exec_beq rs1 rs2 off s), ?_, exists_next_of_branch (exec_blt rs1 rs2 off s)⟩
  have hdiffer := exists_next_of_branch (exec_bne rs1 rs2 off s)
  rwa [ite_not] at hdiffer

/-- Settles O34: J sets pc to its target without a condition. -/
theorem jumpGoesToItsTarget : Obligations.JumpGoesToItsTarget := by
  intro off s
  refine ⟨_, exec_j off s, onlyPc_setPc s _, ?_⟩
  rw [Int.mul_comm 4 off]
  exact toNat_branchTarget s.pc off

end Sys2Proof.Machine
end

section
/-! PROOFS. The family of spec/46_system.md: HALT, CSRR and CSRW (R300 to R302). A control register access is decided by
the map of R38: each equation for `exec` says what one of its answers does. -/

namespace Sys2Proof.Machine

/-- Settles O35: HALT's next state is the written-out one. -/
theorem haltStopsInPlace : Obligations.HaltStopsInPlace := fun _ => rfl

/-! ## CSRR (R301) -/

/-- The engine reads STATUS as 1, and as 9 with OVF in bit 3 (R39). -/
theorem statusForEngine_eq (s : State) : s.statusForEngine = if s.ovf then 9#32 else 1#32 := by
  unfold State.statusForEngine
  cases s.ovf <;> decide

/-- The 13 numbers of R38, and what the engine reads there: STATUS in its own way, the others as the host of a stopped
engine does. -/
theorem csrOf_of_mem_engineMap (s : State) (n : Nat) (value : Word)
    (h : (n, value) ∈ [(0x000, if s.ovf then 9#32 else 1#32), (0x001, specCauseCode s.cause), (0x002, s.fpc),
      (0x003, s.faddr), (0x004, s.finst), (0x010, s.klen), (0x020, 255#32), (0x021, 64#32), (0x022, 400#32),
      (0x023, 32#32), (0x030, 0x414F4D01#32), (0x031, 65536#32), (0x032, 4096#32)]) :
    ∃ c, csrOf n = some c ∧ s.readCsr c = value := by
  rcases List.mem_cons.1 h with hstatus | hothers
  · obtain ⟨rfl, rfl⟩ := Prod.mk.inj hstatus
    exact ⟨.status, rfl, statusForEngine_eq s⟩
  · obtain ⟨c, hc, hread⟩ :=
      csrOf_of_mem_map { s with run := false } n value rfl (List.mem_cons_of_mem _ hothers)
    have hne : c ≠ .status := by
      rintro rfl
      obtain rfl := csrOf_eq_status n hc
      simp at hothers
    rw [State.hostReadCsr, if_neg hne] at hread
    exact ⟨c, hc, hread⟩

theorem exec_csrr_of_some (rd : XReg) (s : State) {n : Nat} {c : Csr} (hc : csrOf n = some c) :
    exec (.csrr rd n) s = .next (s.writeX rd (s.readCsr c)).advance := by
  simp only [exec, execCsrr, hc]

theorem exec_csrr_of_none (rd : XReg) (s : State) {n : Nat} (hc : csrOf n = none) :
    exec (.csrr rd n) s = .next (s.raise illegalTrap (encode (.csrr rd n))) := by
  simp only [exec, execCsrr, hc]

/-- Settles O36: a number of the map is a scalar write of what the engine reads there, any other a raise. -/
theorem csrrReadsTheMapOrFaults : Obligations.CsrrReadsTheMapOrFaults := by
  intro rd s n
  refine ⟨fun value hmem => ?_, fun hn => ?_⟩
  · obtain ⟨c, hc, rfl⟩ := csrOf_of_mem_engineMap s n value hmem
    exact ⟨_, exec_csrr_of_some rd s hc, writeX_advance_spec s rd (s.readCsr c)⟩
  · exact ⟨_, exec_csrr_of_none rd s (csrOf_eq_none n hn), InstrTrap.illegal.raise_faulted s _⟩

/-! ## CSRW (R302) -/

/-- Every number but STATUS's and KLEN's is read-only or unassigned (R38, R48). -/
theorem csrOf_bind_writeCsr_eq_none (s : State) (w : Word) {n : Nat} (h0 : n ≠ 0x000) (h1 : n ≠ 0x010) :
    (csrOf n).bind (fun c => s.writeCsr c w) = none := by
  refine Option.bind_eq_none_iff.2 fun c hc => ?_
  rcases writeCsr_cases s c w with ⟨rfl, -⟩ | ⟨rfl, -⟩ | ⟨-, -, hw⟩
  · exact absurd (csrOf_eq_status n hc) h0
  · exact absurd (csrOf_eq_klen n hc) h1
  · exact hw

theorem exec_csrw_of_some (rs1 : XReg) (s : State) {n : Nat} {t : State}
    (h : (csrOf n).bind (fun c => s.writeCsr c (s.readX rs1)) = some t) :
    exec (.csrw n rs1) s = .next t.advance := by
  simp only [exec, execCsrw, h]

theorem exec_csrw_of_none (rs1 : XReg) (s : State) {n : Nat}
    (h : (csrOf n).bind (fun c => s.writeCsr c (s.readX rs1)) = none) :
    exec (.csrw n rs1) s = .next (s.raise illegalTrap (encode (.csrw n rs1))) := by
  simp only [exec, execCsrw, h]

/-- Settles O37: STATUS and KLEN are the two numbers `writeCsr` accepts, any other is a raise. -/
theorem csrwWritesStatusAndKlenOrFaults : Obligations.CsrwWritesStatusAndKlenOrFaults := by
  intro rs1 s
  refine ⟨exec_csrw_of_some rs1 s (t := s.writeStatus (s.readX rs1)) rfl,
    exec_csrw_of_some rs1 s (t := s.setKlen (s.readX rs1)) rfl, fun n h0 h1 => ?_⟩
  exact ⟨_, exec_csrw_of_none rs1 s (csrOf_bind_writeCsr_eq_none s _ h0 h1), InstrTrap.illegal.raise_faulted s _⟩

end Sys2Proof.Machine
end

section
/-! PROOFS. The family of spec/60_exceptions.md: the engine's step (R320, R345), precise faults and the standing fault
record (R322, R331), the host port (R350 to R357) and reset (R370). What a turn can do is read off the inversion lemmas
`engineTurn_effect`, `step_cases` and `hostAccess_effect`; a transaction's own answer comes through
`step_of_hostAccess`. -/

namespace Sys2Proof.Machine

/-! ## The engine's step (R320, R345) -/

/-- At a good pc with a legal word the engine's step is that instruction's execution (R320). -/
theorem engineStep_of_decode (s : State) (i : Instr) (hf : fetchable s.pc = true)
    (hd : decode (fetchedWord s) = .ok i) : engineStep s = exec i s := by
  have hword : s.ifetch s.pc.toNat = fetchedWord s := rfl
  simp [engineStep, hf, hword, hd]

/-- Settles O6: taking the turn off the schedule moves neither RUN nor the pc nor the word there. -/
theorem stepRunsDecodedInstruction : Obligations.StepRunsDecodedInstruction := by
  intro s rest i ⟨hturn, hrun, haligned, hinside⟩ hd
  calc step s
    _ = engineTurn { s with sched := rest } := step_of_engineTurn s rest hturn
    _ = engineStep { s with sched := rest } := engineTurn_of_run _ hrun
    _ = exec i { s with sched := rest } :=
      engineStep_of_decode { s with sched := rest } i ((fetchable_iff s.pc).2 ⟨haligned, hinside⟩) hd

/-- While RUN = 0 the engine's turn keeps the state (R345). -/
theorem engineTurn_of_idle (s : State) (hr : s.run = false) : engineTurn s = .next s := by
  simp [engineTurn, hr]

/-- Settles O8: the turn is taken off the schedule, and the idle engine does no more. -/
theorem idleEngineKeepsItsState : Obligations.IdleEngineKeepsItsState := by
  intro s rest hturn hr
  rw [step_of_engineTurn s rest hturn]
  exact engineTurn_of_idle { s with sched := rest } hr

/-- No instruction is refused and none stops the model: each arm of `exec` answers a next state. -/
theorem exec_answers_next (i : Instr) (s : State) : ∃ t, exec i s = .next t := by
  cases i <;> exact ⟨_, rfl⟩

/-- The engine's turn answers a next state whether it idles, raises or executes (R330, R345). -/
theorem engineTurn_answers_next (s : State) : ∃ t, engineTurn s = .next t := by
  cases hr : s.run with
  | false => exact ⟨s, engineTurn_of_idle s hr⟩
  | true =>
    rw [engineTurn_of_run s hr]
    cases hf : fetchable s.pc with
    | false => exact (engineStep_faulted_of_not_fetchable s hf).imp fun _ h => h.1
    | true =>
      cases hd : decode (fetchedWord s) with
      | error e => exact (engineStep_faulted_of_illegal s hf e hd).imp fun _ h => h.1
      | ok i => exact engineStep_of_decode s i hf hd ▸ exec_answers_next i s

/-- Settles O9: the turn is the engine's, given or by default, or the host's. -/
theorem everyStepAnswersNext : Obligations.EveryStepAnswersNext := by
  intro s
  match hs : s.sched with
  | [] => exact step_of_engineTurn s [] (.inr ⟨hs, rfl⟩) ▸ engineTurn_answers_next _
  | .engine :: rest => exact step_of_engineTurn s rest (.inl hs) ▸ engineTurn_answers_next _
  | .host x :: rest => exact ⟨_, step_host s x rest hs⟩

/-! ## A placed word (R320, R352, R354) -/

/-- The pc of a placed word can be fetched from: it was good, or has become 0. -/
theorem fetchable_withFetchWord (s : State) (nbits w : Nat) : fetchable (s.withFetchWord nbits w).pc = true := by
  show fetchable (if fetchable s.pc then s.pc else 0#32) = true
  split
  case isTrue hf => exact hf
  case isFalse => decide

/-- The word fetched next is the placed one. -/
theorem fetchedWord_withFetchWord (s : State) (nbits w : Nat) :
    fetchedWord (s.withFetchWord nbits w) = BitVec.ofNat 32 (w % 2 ^ nbits) :=
  ifetch_storeInstr s (s.withFetchWord nbits w).pc.toNat _

/-- Settles O10: a state with a placed word is ready to fetch, so O6 applies; no turn is pending to be taken off. -/
theorem placedWordIsRunNext : Obligations.PlacedWordIsRunNext := by
  intro s w i hd
  obtain ⟨haligned, hinside⟩ := (fetchable_iff _).1 (fetchable_withFetchWord s 32 w)
  exact stepRunsDecodedInstruction (s.withFetchWord 32 w) [] i ⟨.inr ⟨rfl, rfl⟩, rfl, haligned, hinside⟩
    ((fetchedWord_withFetchWord s 32 w).symm ▸ hd)

/-! ## Faults (R322, R330, R331) -/

/-- The state is one that fault entry leaves, with the record R330 asks for: some cause, the pc, and the fetched word or
0 for FETCH_FAULT. -/
def TookFault (s t : State) : Prop :=
  t.cause ≠ .none ∧ Faulted t.cause t.faddr (if t.cause = .fetchFault then 0#32 else fetchedWord s) s t

/-- Fault entry with the fetched word is precise (R322). -/
theorem tookFault_raise (s : State) {trap : Trap} (hc : trap.cause ≠ .none) :
    TookFault s (s.raise trap (fetchedWord s)) :=
  ⟨hc, raise_faulted s trap (fetchedWord s)⟩

/-- FETCH_FAULT records no word, so none has to be given to it. -/
theorem raise_fetchFault (s : State) (info w : Word) :
    s.raise ⟨.fetchFault, info⟩ 0#32 = s.raise ⟨.fetchFault, info⟩ w := by
  simp [State.raise]

/-- An engine's turn that sets FAULT took a precise fault: HALT and every completed instruction leave FAULT alone, and
the word an instruction records is the one it was decoded from. -/
theorem EngineEffect.tookFault {s t : State} (h : EngineEffect s t) (hs : s.fault = false) (ht : t.fault = true) :
    TookFault s t := by
  have hmoved : t.fault ≠ s.fault := by simp [hs, ht]
  cases h with
  | idle => exact absurd rfl hmoved
  | fetchFault =>
    rw [raise_fetchFault s s.pc (fetchedWord s)]
    exact tookFault_raise s (by simp)
  | illegal => exact tookFault_raise s InstrTrap.illegal.cause_ne_none
  | executed hr hf i hd t hx =>
    have hword : encode i = fetchedWord s := (encodeOfDecode (fetchedWord s) i hd).2
    rcases (exec_effect i s t hx).record with ⟨trap, htrap, rfl⟩ | ⟨-, rfl⟩ | hsame
    · rw [hword]
      exact tookFault_raise s htrap.cause_ne_none
    · exact absurd rfl hmoved
    · exact absurd hsame.fault hmoved

/-- Settles O20: the step is the engine's turn, and one that sets FAULT took a precise fault. -/
theorem faultsArePrecise : Obligations.FaultsArePrecise := by
  intro s t rest hturn _ hs hstep ht
  rw [step_of_engineTurn s rest hturn] at hstep
  exact (engineTurn_effect _ t hstep).tookFault hs ht

/-- A faulted engine is idle (R40), so its turn changes nothing (R345). -/
theorem EngineEffect.eq_of_fault {s t : State} (h : EngineEffect s t) (hone : AtMostOneStatus s)
    (hs : s.fault = true) : t = s := by
  have hidle : s.run ≠ true := fun hr => by simp [(hone.of_run hr).2] at hs
  cases h with
  | idle => rfl
  | fetchFault hr => exact absurd hr hidle
  | illegal hr => exact absurd hr hidle
  | executed hr => exact absurd hr hidle

/-- Settles O21: the engine's turn changes nothing, and of the transactions only START and RESET touch the record. -/
theorem faultRecordStandsUntilStartOrReset : Obligations.FaultRecordStandsUntilStartOrReset := by
  intro s t hinv hs hstep hstart hreset
  rcases step_cases s t hstep with ⟨rest, -, he⟩ | ⟨x, rest, hx, rfl⟩
  · obtain rfl := he.eq_of_fault (hinv.set_sched rest).oneStatus hs
    exact ⟨hs, rfl, rfl, rfl, rfl⟩
  · rcases (hostAccess_effect { s with sched := rest } x).record with
      ⟨p, rfl, -, -⟩ | ⟨rfl, -⟩ | ⟨rfl, -⟩ | ⟨hsame, -⟩
    · exact absurd hx (hstart p rest)
    · exact ⟨hs, rfl, rfl, rfl, rfl⟩
    · exact absurd hx (hreset rest)
    · exact ⟨hsame.fault.trans hs, hsame.cause, hsame.fpc, hsame.faddr, hsame.finst⟩

/-! ## A transaction's turn (R350, R357) -/

/-- A step in the host's turn leaves what the transaction leaves, with its response recorded (R350, R359). -/
theorem step_of_hostAccess {s t : State} {x : HostTx} {rest : List Turn} {reply : HostReply}
    (hx : s.sched = .host x :: rest) (ha : hostAccess { s with sched := rest } x = (reply, t)) :
    step s = .next { t with replies := reply :: t.replies } := by
  rw [step_host s x rest hx, State.hostTurn, ha]

/-- A transaction to a stopped engine is answered as it asks. -/
theorem whenStopped_served {s : State} {r answer : HostReply × State} (hr : s.run = false) (h : r = answer) :
    s.whenStopped r = answer :=
  (whenStopped_of_stopped s r hr).trans h

/-- A transaction that a stopped engine turns away is turned away by every engine. -/
theorem whenStopped_err {s : State} {r : HostReply × State} (h : s.run = false → r = (.err, s)) :
    s.whenStopped r = (.err, s) := by
  cases hr : s.run with
  | true => exact whenStopped_of_running s r hr
  | false => rw [whenStopped_of_stopped s r hr, h hr]

/-- While the engine runs, every transaction but a STATUS read, STOP and RESET is turned away (R357). -/
theorem hostAccess_of_running {s : State} {x : HostTx} (hr : s.run = true) (hstop : x ≠ .stop) (hreset : x ≠ .reset)
    (hstatus : x ≠ .rdCsr 0x000) : hostAccess s x = (.err, s) := by
  cases x with
  | stop => exact absurd rfl hstop
  | reset => exact absurd rfl hreset
  | rdCsr n =>
    cases hc : csrOf n with
    | none => simp only [hostAccess, hc]
    | some c =>
      have hne : c ≠ .status := fun h => hstatus (congrArg _ (csrOf_eq_status n (h ▸ hc)))
      cases c with
      | status => exact absurd rfl hne
      | _ => simp only [hostAccess, hc, whenStopped_of_running s _ hr]
  | _ => exact whenStopped_of_running s _ hr

/-- STATUS as the host reads it is the sum of its four bits (R39). -/
theorem statusForHost_eq (s : State) : s.statusForHost =
    BitVec.ofNat 32 (s.run.toNat + 2 * s.halted.toNat + 4 * s.fault.toNat + 8 * s.ovf.toNat) := by
  unfold State.statusForHost
  cases s.run <;> cases s.halted <;> cases s.fault <;> cases s.ovf <;> decide

/-- Settles O54: a transaction turned away and a STATUS read leave the state, but for the response. -/
theorem hostIsTurnedAwayWhileRunning : Obligations.HostIsTurnedAwayWhileRunning := by
  intro s x rest hx hr
  refine ⟨fun hstop hreset hstatus => ?_, ?_⟩
  · exact step_of_hostAccess hx (hostAccess_of_running hr hstop hreset hstatus)
  · rintro rfl
    have hbits := statusForHost_eq s
    rw [hr, Bool.toNat_true] at hbits
    rw [← hbits]
    exact step_of_hostAccess hx rfl

/-! ## START, STOP and RESET (R354 to R356, R370) -/

/-- Settles O55: START needs a stopped engine, and then leaves `State.start`. -/
theorem startBeginsARun : Obligations.StartBeginsARun := by
  intro s pc0 rest hx
  refine ⟨fun hr => step_of_hostAccess hx (whenStopped_of_running _ _ hr), fun hr => ?_⟩
  exact ⟨_, step_of_hostAccess hx (whenStopped_of_stopped _ _ hr), rfl, rfl, rfl, rfl, rfl, rfl, rfl, rfl, rfl, rfl,
    fun _ => rfl, fun _ => rfl, fun _ => rfl, fun _ => rfl, rfl, rfl⟩

/-- Settles O56: STOP needs no stopped engine. -/
theorem stopClearsRunOnly : Obligations.StopClearsRunOnly :=
  fun _ _ hx => step_of_hostAccess hx rfl

/-- Settles O53: power-on is reset number 0 and HOST_RESET the next one, and every reset leaves the ruled values. -/
theorem resetLeavesTheRuledState : Obligations.ResetLeavesTheRuledState := by
  unfold Obligations.ResetLeavesTheRuledState
  intro ruled
  have hruled : ∀ epoch sched replies, ruled (State.resetAt epoch sched replies) := fun _ _ _ =>
    ⟨rfl, rfl, rfl, rfl, rfl, rfl, rfl, rfl, rfl, rfl, readX_zero _⟩
  exact ⟨hruled 0 [] [], fun s rest hx => ⟨_, step_of_hostAccess hx rfl, hruled (s.epoch + 1) rest _, rfl, rfl⟩⟩

/-! ## Data memory (R351) -/

/-- A byte read from data memory after the host wrote one there. -/
theorem dmemByte_storeBytes_one (s : State) (a c : Nat) (b : Byte) :
    (s.storeBytes a (fun _ => b) 1).dmemByte c = if c = a then b else s.dmemByte c := by
  rw [dmemByte_storeBytes]
  exact if_congr (by omega) rfl rfl

/-- Settles O57: served, a write is one store and a read one byte; otherwise both are turned away. -/
theorem hostReadsAndWritesDmemBytes : Obligations.HostReadsAndWritesDmemBytes := by
  intro s a b rest
  by_cases hs : s.run = false ∧ a < 65536
  · simp only [if_pos hs, and_iff_left hs]
    refine ⟨fun hx => ?_, fun hx => ?_⟩
    · have hstep := step_of_hostAccess hx (whenStopped_served hs.1 (if_pos hs.2))
      exact ⟨_, hstep, rfl, fun c => dmemByte_storeBytes_one s a c b, fun _ => rfl, fun _ => rfl, rfl, rfl,
        ⟨rfl, rfl, rfl, rfl, rfl, rfl, rfl, rfl, fun _ => rfl, rfl, rfl, rfl⟩⟩
    · exact step_of_hostAccess hx (whenStopped_served hs.1 (if_pos hs.2))
  · have haway : s.run = false → ¬ a < 65536 := fun hr ha => hs ⟨hr, ha⟩
    simp only [hs, and_false, if_false]
    refine ⟨fun hx => ?_, fun hx => ?_⟩
    · have hstep := step_of_hostAccess hx (whenStopped_err fun hr => if_neg (haway hr))
      exact ⟨_, hstep, rfl, fun _ => rfl, fun _ => rfl, fun _ => rfl, rfl, rfl, sameRest_refl _⟩
    · exact step_of_hostAccess hx (whenStopped_err fun hr => if_neg (haway hr))

/-! ## Instruction memory (R352) -/

/-- Settles O58: served, a write is one `storeInstr` and a read one fetch; otherwise both are turned away. -/
theorem hostReadsAndWritesImemWords : Obligations.HostReadsAndWritesImemWords := by
  intro s a w rest served
  by_cases hs : served
  · refine ⟨fun hx => ?_, fun hx => ⟨fun _ => ?_, fun hn => absurd hs hn⟩⟩
    · have hstep := step_of_hostAccess hx (whenStopped_served hs.1 (if_pos hs.2))
      exact ⟨_, hstep, fun _ => ⟨rfl, fun c => imemByte_storeInstr s a c w⟩, fun hn => absurd hs hn, fun _ => rfl,
        fun _ => rfl, fun _ => rfl, rfl, rfl, rfl, rfl, rfl, rfl, rfl, rfl, rfl, rfl, rfl⟩
    · exact step_of_hostAccess hx (whenStopped_served hs.1 (if_pos hs.2))
  · have haway : s.run = false → ¬ (a % 4 = 0 ∧ a + 4 ≤ 4096) := fun hr ha => hs ⟨hr, ha⟩
    refine ⟨fun hx => ?_, fun hx => ⟨fun hy => absurd hy hs, fun _ => ?_⟩⟩
    · have hstep := step_of_hostAccess hx (whenStopped_err fun hr => if_neg (haway hr))
      exact ⟨_, hstep, fun hy => absurd hy hs, fun _ => ⟨rfl, fun _ => rfl⟩, fun _ => rfl, fun _ => rfl, fun _ => rfl,
        rfl, rfl, rfl, rfl, rfl, rfl, rfl, rfl, rfl, rfl, rfl⟩
    · exact step_of_hostAccess hx (whenStopped_err fun hr => if_neg (haway hr))

/-! ## Registers (R353) -/

/-- A scalar register after a write, by the numbers of the two registers (R31). -/
theorem readX_writeX_val (s : State) (r q : XReg) (w : Word) :
    (s.writeX r w).readX q = if q.val = r.val ∧ q ≠ 0 then w else s.readX q := by
  rw [readX_writeX]
  refine if_congr ?_ rfl rfl
  rw [← Fin.ext_iff]
  exact and_congr_right fun h => h ▸ Iff.rfl

/-- A vector register after a write, by the numbers of the two registers (R34). -/
theorem readV_writeV_val (s : State) (r q : VReg) (u : VWord) :
    (s.writeV r u).readV q = if q.val = r.val then u else s.readV q := by
  rw [readV_writeV]
  exact if_congr Fin.ext_iff rfl rfl

/-- Settles O59: served, each transaction reads or writes the register of its number; otherwise it is turned away. -/
theorem hostReadsAndWritesRegisters : Obligations.HostReadsAndWritesRegisters := by
  intro s n w u rest served
  by_cases hs : served
  · refine ⟨fun hx => ?_, fun hx => ?_, fun hx => ⟨fun r _ hr => ?_, fun hn => absurd hs hn⟩,
      fun hx => ⟨fun r _ hr => ?_, fun hn => absurd hs hn⟩⟩
    · have hstep := step_of_hostAccess hx (whenStopped_served hs.1 (dif_pos hs.2))
      exact ⟨_, hstep, fun _ => ⟨rfl, fun r => readX_writeX_val s ⟨n, hs.2⟩ r w⟩, fun hn => absurd hs hn,
        fun _ => rfl, fun _ => rfl, rfl, rfl,
        ⟨rfl, rfl, rfl, rfl, rfl, rfl, rfl, rfl, fun _ => rfl, rfl, rfl, rfl⟩⟩
    · have hstep := step_of_hostAccess hx (whenStopped_served hs.1 (dif_pos hs.2))
      exact ⟨_, hstep, fun _ => ⟨rfl, fun r => readV_writeV_val s ⟨n, hs.2⟩ r u⟩, fun hn => absurd hs hn,
        fun _ => rfl, fun _ => rfl, rfl, rfl,
        ⟨rfl, rfl, rfl, rfl, rfl, rfl, rfl, rfl, fun _ => rfl, rfl, rfl, rfl⟩⟩
    · subst hr
      exact step_of_hostAccess hx (whenStopped_served hs.1 (dif_pos r.isLt))
    · subst hr
      exact step_of_hostAccess hx (whenStopped_served hs.1 (dif_pos r.isLt))
  · have haway : s.run = false → ¬ n < 16 := fun hr hn => hs ⟨hr, hn⟩
    refine ⟨fun hx => ?_, fun hx => ?_, fun hx => ⟨fun _ hy => absurd hy hs, fun _ => ?_⟩,
      fun hx => ⟨fun _ hy => absurd hy hs, fun _ => ?_⟩⟩
    · have hstep := step_of_hostAccess hx (whenStopped_err fun hr => dif_neg (haway hr))
      exact ⟨_, hstep, fun hy => absurd hy hs, fun _ => ⟨rfl, fun _ => rfl⟩, fun _ => rfl, fun _ => rfl, rfl, rfl,
        sameRest_refl _⟩
    · have hstep := step_of_hostAccess hx (whenStopped_err fun hr => dif_neg (haway hr))
      exact ⟨_, hstep, fun hy => absurd hy hs, fun _ => ⟨rfl, fun _ => rfl⟩, fun _ => rfl, fun _ => rfl, rfl, rfl,
        sameRest_refl _⟩
    · exact step_of_hostAccess hx (whenStopped_err fun hr => dif_neg (haway hr))
    · exact step_of_hostAccess hx (whenStopped_err fun hr => dif_neg (haway hr))

end Sys2Proof.Machine
end
